-- ==== Sys2Proof/Word.lean ====
section
/-! DEFINITION. The word types of ESL-EMAC (spec 00_scope R12): bytes, 16-bit halves, 32-bit words and
48-bit MAC addresses, all unsigned bit vectors. -/

namespace Sys2Proof

/-- `u8`: one byte of memory or of a frame (R12). -/
abbrev Byte := BitVec 8

/-- `u16`: a port, an EtherType, an identifier, PHY data (R12, R14). -/
abbrev Half := BitVec 16

/-- `u32`: a register, a system address, an IPv4 address (R12, R14). -/
abbrev Word := BitVec 32

/-- `u48`: a MAC address, bits 47:40 the first byte on the wire (R14). -/
abbrev Mac := BitVec 48

end Sys2Proof
end

