-- ==== Sys2Proof/Syntax.lean ====
section
/-! DEFINITION. The four encoded objects of spec 30_encoding (R110) as one inductive: one constructor per row of
spec/opcode_table.json. -/

namespace Sys2Proof

/-- Direction and data of a host register access (R111): `data` is absent for a read. -/
inductive RegAccess where
  | read
  | write (data : Word)
deriving DecidableEq, Repr

/-- Word 0 of a descriptor without its `OWN` bit (R112); `OWN` is what tells the constructors apart. -/
structure DescCtl where
  /-- bit 30 -/
  wrap : Bool
  /-- bit 29, interrupt on completion -/
  ioc : Bool
  /-- bit 28 -/
  done : Bool
  /-- bit 27 -/
  err : Bool
  /-- bits 26:16 -/
  reserved : BitVec 11
  /-- bits 15:0 -/
  len : Half
deriving DecidableEq, Repr

/-- Where an encoded object stands and who decodes it (R110).  The two rings share format `DESC`. -/
inductive Format where
  | mmio
  | txDesc
  | rxDesc
  | mmfr
  | ppCmd
deriving DecidableEq, Repr

/-- The operations of the block, in the order of spec/opcode_table.json. -/
inductive Instr where
  -- format MMIO (R111): one host access to one register
  /-- `CTRL`, offset 0x000 -/
  | ctrl (access : RegAccess)
  /-- `EIR`, offset 0x004 -/
  | eir (access : RegAccess)
  /-- `EIMR`, offset 0x008 -/
  | eimr (access : RegAccess)
  /-- `STATUS`, offset 0x00C -/
  | status (access : RegAccess)
  /-- `TDSR`, offset 0x010 -/
  | tdsr (access : RegAccess)
  /-- `RDSR`, offset 0x014 -/
  | rdsr (access : RegAccess)
  /-- `TDAR`, offset 0x018 -/
  | tdar (access : RegAccess)
  /-- `RDAR`, offset 0x01C -/
  | rdar (access : RegAccess)
  /-- `RXMAX`, offset 0x020 -/
  | rxmax (access : RegAccess)
  /-- `MACLO`, offset 0x024 -/
  | maclo (access : RegAccess)
  /-- `MACHI`, offset 0x028 -/
  | machi (access : RegAccess)
  /-- `TDCUR`, offset 0x02C -/
  | tdcur (access : RegAccess)
  /-- `RDCUR`, offset 0x030 -/
  | rdcur (access : RegAccess)
  /-- `MMFR`, offset 0x034 -/
  | mmfr (access : RegAccess)
  /-- `CNT_TX_SENT`, offset 0x040 -/
  | cntTxSent (access : RegAccess)
  /-- `CNT_TX_ERR`, offset 0x044 -/
  | cntTxErr (access : RegAccess)
  /-- `CNT_RX_STORED`, offset 0x048 -/
  | cntRxStored (access : RegAccess)
  /-- `CNT_RX_NODESC`, offset 0x04C -/
  | cntRxNodesc (access : RegAccess)
  /-- `CNT_RX_OVERSIZE`, offset 0x050 -/
  | cntRxOversize (access : RegAccess)
  /-- `CNT_L2_ARP_ACC`, offset 0x054 -/
  | cntL2ArpAcc (access : RegAccess)
  /-- `CNT_L2_IP4_ACC`, offset 0x058 -/
  | cntL2Ip4Acc (access : RegAccess)
  /-- `CNT_L2_ARP_DROP`, offset 0x05C -/
  | cntL2ArpDrop (access : RegAccess)
  /-- `CNT_L2_IP4_DROP`, offset 0x060 -/
  | cntL2Ip4Drop (access : RegAccess)
  /-- `CNT_L2_OTHER_DROP`, offset 0x064 -/
  | cntL2OtherDrop (access : RegAccess)
  /-- `CNT_ARP_BAD`, offset 0x068 -/
  | cntArpBad (access : RegAccess)
  /-- `CNT_IP4_BADHDR`, offset 0x06C -/
  | cntIp4Badhdr (access : RegAccess)
  /-- `CNT_IP4_BADCSUM`, offset 0x070 -/
  | cntIp4Badcsum (access : RegAccess)
  /-- `CNT_IP4_BADDST`, offset 0x074 -/
  | cntIp4Baddst (access : RegAccess)
  /-- `CNT_IP4_BADPROTO`, offset 0x078 -/
  | cntIp4Badproto (access : RegAccess)
  /-- `CNT_ICMP_DROP`, offset 0x07C -/
  | cntIcmpDrop (access : RegAccess)
  /-- `CNT_UDP_BADLEN`, offset 0x080 -/
  | cntUdpBadlen (access : RegAccess)
  /-- `CNT_UDP_NOPORT`, offset 0x084 -/
  | cntUdpNoport (access : RegAccess)
  /-- `PP_CMD`, offset 0x100 -/
  | ppCmd (access : RegAccess)
  /-- `PP_STATUS`, offset 0x104 -/
  | ppStatus (access : RegAccess)
  /-- `P0`, offset 0x108 -/
  | p0 (access : RegAccess)
  /-- `P1`, offset 0x10C -/
  | p1 (access : RegAccess)
  /-- `P2`, offset 0x110 -/
  | p2 (access : RegAccess)
  /-- `P3`, offset 0x114 -/
  | p3 (access : RegAccess)
  /-- `P4`, offset 0x118 -/
  | p4 (access : RegAccess)
  /-- `P5`, offset 0x11C -/
  | p5 (access : RegAccess)
  /-- `P6`, offset 0x120 -/
  | p6 (access : RegAccess)
  /-- `P7`, offset 0x124 -/
  | p7 (access : RegAccess)
  /-- `IP4_ADDR`, offset 0x140 -/
  | ip4Addr (access : RegAccess)
  /-- `IP4_MASK`, offset 0x144 -/
  | ip4Mask (access : RegAccess)
  /-- `IP4_GW`, offset 0x148 -/
  | ip4Gw (access : RegAccess)
  /-- `IP4_TTL`, offset 0x14C -/
  | ip4Ttl (access : RegAccess)
  /-- `ARP_SEL`, offset 0x150 -/
  | arpSel (access : RegAccess)
  /-- `ARP_IP`, offset 0x154 -/
  | arpIp (access : RegAccess)
  /-- `ARP_MACLO`, offset 0x158 -/
  | arpMaclo (access : RegAccess)
  /-- `ARP_MACHI`, offset 0x15C -/
  | arpMachi (access : RegAccess)
  /-- `ARP_TS`, offset 0x160 -/
  | arpTs (access : RegAccess)
  /-- `UDP_PORT0`, offset 0x180 -/
  | udpPort0 (access : RegAccess)
  /-- `UDP_PORT1`, offset 0x184 -/
  | udpPort1 (access : RegAccess)
  /-- `UDP_PORT2`, offset 0x188 -/
  | udpPort2 (access : RegAccess)
  /-- `UDP_PORT3`, offset 0x18C -/
  | udpPort3 (access : RegAccess)
  /-- `UDP_PORT4`, offset 0x190 -/
  | udpPort4 (access : RegAccess)
  /-- `UDP_PORT5`, offset 0x194 -/
  | udpPort5 (access : RegAccess)
  /-- `UDP_PORT6`, offset 0x198 -/
  | udpPort6 (access : RegAccess)
  /-- `UDP_PORT7`, offset 0x19C -/
  | udpPort7 (access : RegAccess)
  /-- any reserved offset (R21, R161) -/
  | reserved (offset : BitVec 12) (access : RegAccess)
  -- format DESC (R112): word 0, and word 1 (`BUF`) where the engine reads it
  /-- Tx descriptor with `OWN = 1` -/
  | txd (ctl : DescCtl) (buf : Word)
  /-- Tx descriptor with `OWN = 0`; word 1 is not read (R91) -/
  | txdStop (ctl : DescCtl)
  /-- Rx descriptor with `OWN = 1` -/
  | rxd (ctl : DescCtl) (buf : Word)
  /-- Rx descriptor with `OWN = 0`; word 1 is not read (R91) -/
  | rxdStop (ctl : DescCtl)
  -- format MMFR (R113)
  /-- `ST = 01`, `OP = 10` -/
  | mdioRead (pa ra : BitVec 5) (ta : BitVec 2) (data : Half)
  /-- `ST = 01`, `OP = 01` -/
  | mdioWrite (pa ra : BitVec 5) (ta : BitVec 2) (data : Half)
  /-- every other management word (R183) -/
  | mmfrNoOperation (word : Word)
  -- format PPCMD (R114, R118)
  /-- `NOP`, `OPC` 0x00 -/
  | nop
  /-- `CKSUM`, `OPC` 0x01 -/
  | cksum
  /-- `ETH_HDR`, `OPC` 0x02 -/
  | ethHdr
  /-- `ARP_REQ`, `OPC` 0x03 -/
  | arpReq
  /-- `ARP_REPLY`, `OPC` 0x04 -/
  | arpReply
  /-- `IP4_HDR`, `OPC` 0x05 -/
  | ip4Hdr
  /-- `ICMP_ECHO_REQ`, `OPC` 0x06 -/
  | icmpEchoReq
  /-- `ICMP_ECHO_REPLY`, `OPC` 0x07 -/
  | icmpEchoReply
  /-- `UDP_HDR`, `OPC` 0x08 -/
  | udpHdr (csum : Bool)
  /-- `RX_CLASSIFY`, `OPC` 0x09 -/
  | rxClassify
  /-- `IP4_NEXTHOP`, `OPC` 0x0A -/
  | ip4Nexthop
  /-- `ARP_RESOLVE`, `OPC` 0x0B -/
  | arpResolve
  /-- `ARP_UPDATE`, `OPC` 0x0C -/
  | arpUpdate
  /-- `UDP_BIND`, `OPC` 0x0D -/
  | udpBind
  /-- `UDP_UNBIND`, `OPC` 0x0E -/
  | udpUnbind
  /-- every other command word (R120) -/
  | ppIllegal (word : Word)
deriving DecidableEq, Repr

end Sys2Proof
end

