-- ==== Sys2Proof/WellFormed.lean ====
section
/-! DEFINITION. Which terms of `Instr` are operations of the block: three constructors carry a raw field whose
values spec 30_encoding limits (R21, R113, R120). -/

namespace Sys2Proof

/-- The reserved offsets of the register map (R20): multiples of 4 in 0x038-0x03C, 0x088-0x0FC, 0x128-0x13C,
0x164-0x17C and 0x1A0-0xFFC. -/
def reservedOffset (offset : BitVec 12) : Bool :=
  let n := offset.toNat
  n % 4 == 0 &&
    ((0x038 ≤ n && n ≤ 0x03C) || (0x088 ≤ n && n ≤ 0x0FC) || (0x128 ≤ n && n ≤ 0x13C) ||
      (0x164 ≤ n && n ≤ 0x17C) || 0x1A0 ≤ n)

/-- A management word that starts an operation (R113, R152): `ST = 01` and `OP` read (10) or write (01). -/
def mmfrStarts (word : Word) : Bool :=
  word.extractLsb' 30 2 == 0b01#2 &&
    (word.extractLsb' 28 2 == 0b10#2 || word.extractLsb' 28 2 == 0b01#2)

/-- The illegal command words (R120). -/
def ppIllegalWord (word : Word) : Bool :=
  word.extractLsb' 9 23 != 0#23 || 0x0F ≤ (word.extractLsb' 0 8).toNat ||
    (word.getLsbD 8 && word.extractLsb' 0 8 != 0x08#8)

/-- Well-formed instructions: the raw fields hold only what their rows of the table allow. -/
def Instr.wellFormed : Instr → Bool
  | .reserved offset _ => reservedOffset offset
  | .mmfrNoOperation word => !mmfrStarts word
  | .ppIllegal word => ppIllegalWord word
  | .ctrl _ => true
  | .eir _ => true
  | .eimr _ => true
  | .status _ => true
  | .tdsr _ => true
  | .rdsr _ => true
  | .tdar _ => true
  | .rdar _ => true
  | .rxmax _ => true
  | .maclo _ => true
  | .machi _ => true
  | .tdcur _ => true
  | .rdcur _ => true
  | .mmfr _ => true
  | .cntTxSent _ => true
  | .cntTxErr _ => true
  | .cntRxStored _ => true
  | .cntRxNodesc _ => true
  | .cntRxOversize _ => true
  | .cntL2ArpAcc _ => true
  | .cntL2Ip4Acc _ => true
  | .cntL2ArpDrop _ => true
  | .cntL2Ip4Drop _ => true
  | .cntL2OtherDrop _ => true
  | .cntArpBad _ => true
  | .cntIp4Badhdr _ => true
  | .cntIp4Badcsum _ => true
  | .cntIp4Baddst _ => true
  | .cntIp4Badproto _ => true
  | .cntIcmpDrop _ => true
  | .cntUdpBadlen _ => true
  | .cntUdpNoport _ => true
  | .ppCmd _ => true
  | .ppStatus _ => true
  | .p0 _ => true
  | .p1 _ => true
  | .p2 _ => true
  | .p3 _ => true
  | .p4 _ => true
  | .p5 _ => true
  | .p6 _ => true
  | .p7 _ => true
  | .ip4Addr _ => true
  | .ip4Mask _ => true
  | .ip4Gw _ => true
  | .ip4Ttl _ => true
  | .arpSel _ => true
  | .arpIp _ => true
  | .arpMaclo _ => true
  | .arpMachi _ => true
  | .arpTs _ => true
  | .udpPort0 _ => true
  | .udpPort1 _ => true
  | .udpPort2 _ => true
  | .udpPort3 _ => true
  | .udpPort4 _ => true
  | .udpPort5 _ => true
  | .udpPort6 _ => true
  | .udpPort7 _ => true
  | .txd _ _ => true
  | .txdStop _ => true
  | .rxd _ _ => true
  | .rxdStop _ => true
  | .mdioRead _ _ _ _ => true
  | .mdioWrite _ _ _ _ => true
  | .nop => true
  | .cksum => true
  | .ethHdr => true
  | .arpReq => true
  | .arpReply => true
  | .ip4Hdr => true
  | .icmpEchoReq => true
  | .icmpEchoReply => true
  | .udpHdr _ => true
  | .rxClassify => true
  | .ip4Nexthop => true
  | .arpResolve => true
  | .arpUpdate => true
  | .udpBind => true
  | .udpUnbind => true

end Sys2Proof
end

