-- ==== Sys2Proof/Decode.lean ====
section
/-! DEFINITION. The decoder of the four formats of spec 30_encoding (R110 to R120), total on any bytes, and the encoder. -/

namespace Sys2Proof

/-- Why bytes are no encoded object. -/
inductive DecodeError where
  /-- not the fixed length of the format (R110) -/
  | wrongLength
  /-- `MMIO`: the offset is no multiple of 4 (R83) -/
  | misalignedOffset
  /-- `MMIO`: a bit above the 45 bits of the access triple is set (log 7) -/
  | paddingNotZero
deriving DecidableEq, Repr

/-- The decoder's answer. -/
inductive Decoded where
  | ok (i : Instr)
  | rejected (e : DecodeError)
deriving DecidableEq, Repr

/-- The operation a register access selects (R111, R20): the register whose offset is `offset`, or the
reserved behaviour (R21) at every other multiple of 4. -/
def decodeMmio (offset : BitVec 12) (a : RegAccess) : Decoded :=
  match offset.toNat with
  | 0x000 => .ok (.ctrl a)
  | 0x004 => .ok (.eir a)
  | 0x008 => .ok (.eimr a)
  | 0x00C => .ok (.status a)
  | 0x010 => .ok (.tdsr a)
  | 0x014 => .ok (.rdsr a)
  | 0x018 => .ok (.tdar a)
  | 0x01C => .ok (.rdar a)
  | 0x020 => .ok (.rxmax a)
  | 0x024 => .ok (.maclo a)
  | 0x028 => .ok (.machi a)
  | 0x02C => .ok (.tdcur a)
  | 0x030 => .ok (.rdcur a)
  | 0x034 => .ok (.mmfr a)
  | 0x040 => .ok (.cntTxSent a)
  | 0x044 => .ok (.cntTxErr a)
  | 0x048 => .ok (.cntRxStored a)
  | 0x04C => .ok (.cntRxNodesc a)
  | 0x050 => .ok (.cntRxOversize a)
  | 0x054 => .ok (.cntL2ArpAcc a)
  | 0x058 => .ok (.cntL2Ip4Acc a)
  | 0x05C => .ok (.cntL2ArpDrop a)
  | 0x060 => .ok (.cntL2Ip4Drop a)
  | 0x064 => .ok (.cntL2OtherDrop a)
  | 0x068 => .ok (.cntArpBad a)
  | 0x06C => .ok (.cntIp4Badhdr a)
  | 0x070 => .ok (.cntIp4Badcsum a)
  | 0x074 => .ok (.cntIp4Baddst a)
  | 0x078 => .ok (.cntIp4Badproto a)
  | 0x07C => .ok (.cntIcmpDrop a)
  | 0x080 => .ok (.cntUdpBadlen a)
  | 0x084 => .ok (.cntUdpNoport a)
  | 0x100 => .ok (.ppCmd a)
  | 0x104 => .ok (.ppStatus a)
  | 0x108 => .ok (.p0 a)
  | 0x10C => .ok (.p1 a)
  | 0x110 => .ok (.p2 a)
  | 0x114 => .ok (.p3 a)
  | 0x118 => .ok (.p4 a)
  | 0x11C => .ok (.p5 a)
  | 0x120 => .ok (.p6 a)
  | 0x124 => .ok (.p7 a)
  | 0x140 => .ok (.ip4Addr a)
  | 0x144 => .ok (.ip4Mask a)
  | 0x148 => .ok (.ip4Gw a)
  | 0x14C => .ok (.ip4Ttl a)
  | 0x150 => .ok (.arpSel a)
  | 0x154 => .ok (.arpIp a)
  | 0x158 => .ok (.arpMaclo a)
  | 0x15C => .ok (.arpMachi a)
  | 0x160 => .ok (.arpTs a)
  | 0x180 => .ok (.udpPort0 a)
  | 0x184 => .ok (.udpPort1 a)
  | 0x188 => .ok (.udpPort2 a)
  | 0x18C => .ok (.udpPort3 a)
  | 0x190 => .ok (.udpPort4 a)
  | 0x194 => .ok (.udpPort5 a)
  | 0x198 => .ok (.udpPort6 a)
  | 0x19C => .ok (.udpPort7 a)
  | n => if n % 4 = 0 then .ok (.reserved offset a) else .rejected .misalignedOffset

/-- Bit 31 of a descriptor's word 0 (R112). -/
def ownBit (w0 : Word) : Bool := w0.getLsbD 31

/-- The fields of word 0 below `OWN` (R112). -/
def descCtlOf (w0 : Word) : DescCtl where
  wrap := w0.getLsbD 30
  ioc := w0.getLsbD 29
  done := w0.getLsbD 28
  err := w0.getLsbD 27
  reserved := w0.extractLsb' 16 11
  len := w0.extractLsb' 0 16

/-- Word 0 of a descriptor from its fields (R112). -/
def descWord (own : Bool) (c : DescCtl) : Word :=
  BitVec.ofBool own ++ BitVec.ofBool c.wrap ++ BitVec.ofBool c.ioc ++ BitVec.ofBool c.done ++
    BitVec.ofBool c.err ++ c.reserved ++ c.len

/-- A Tx descriptor (R112): only `OWN` selects behaviour. -/
def decodeTxDesc (w0 w1 : Word) : Instr :=
  if ownBit w0 then .txd (descCtlOf w0) w1 else .txdStop (descCtlOf w0)

/-- An Rx descriptor (R112). -/
def decodeRxDesc (w0 w1 : Word) : Instr :=
  if ownBit w0 then .rxd (descCtlOf w0) w1 else .rxdStop (descCtlOf w0)

/-- `MMFR.PA`, bits 27:23 (R113). -/
def mmfrPa (w : Word) : BitVec 5 := w.extractLsb' 23 5

/-- `MMFR.RA`, bits 22:18 (R113). -/
def mmfrRa (w : Word) : BitVec 5 := w.extractLsb' 18 5

/-- A management word (R113, R119). -/
def decodeMmfr (w : Word) : Instr :=
  if w.extractLsb' 30 2 = 0b01#2 ∧ w.extractLsb' 28 2 = 0b10#2 then
    .mdioRead (mmfrPa w) (mmfrRa w) (w.extractLsb' 16 2) (w.extractLsb' 0 16)
  else if w.extractLsb' 30 2 = 0b01#2 ∧ w.extractLsb' 28 2 = 0b01#2 then
    .mdioWrite (mmfrPa w) (mmfrRa w) (w.extractLsb' 16 2) (w.extractLsb' 0 16)
  else .mmfrNoOperation w

/-- A management word from its fields (R113). -/
def mmfrWord (op : BitVec 2) (pa ra : BitVec 5) (ta : BitVec 2) (data : Half) : Word :=
  0b01#2 ++ op ++ pa ++ ra ++ ta ++ data

/-- A packet-processor command word (R114, R118, R120). -/
def decodePp (w : Word) : Instr :=
  if w.extractLsb' 9 23 ≠ 0#23 then .ppIllegal w
  else if w.getLsbD 8 then
    if w.extractLsb' 0 8 = 0x08#8 then .udpHdr true else .ppIllegal w
  else
    match (w.extractLsb' 0 8).toNat with
    | 0x00 => .nop
    | 0x01 => .cksum
    | 0x02 => .ethHdr
    | 0x03 => .arpReq
    | 0x04 => .arpReply
    | 0x05 => .ip4Hdr
    | 0x06 => .icmpEchoReq
    | 0x07 => .icmpEchoReply
    | 0x08 => .udpHdr false
    | 0x09 => .rxClassify
    | 0x0A => .ip4Nexthop
    | 0x0B => .arpResolve
    | 0x0C => .arpUpdate
    | 0x0D => .udpBind
    | 0x0E => .udpUnbind
    | _ => .ppIllegal w

/-- `n` bytes, least significant first. -/
def leBytes4 (w : Word) : List Byte :=
  [w.extractLsb' 0 8, w.extractLsb' 8 8, w.extractLsb' 16 8, w.extractLsb' 24 8]

/-- The 32-bit value of four bytes, least significant first (R13, R85). -/
def ofLe4 (b0 b1 b2 b3 : Byte) : Word := b3 ++ b2 ++ b1 ++ b0

/-- The access triple of R111 as one number: bits 11:0 the offset, bit 12 the direction (0 read, 1 write),
bits 44:13 the data (0 for a read).  The order of the three is the model's choice (log 7). -/
def mmioBits (offset : BitVec 12) (a : RegAccess) : BitVec 48 :=
  match a with
  | .read => 0#35 ++ 0#1 ++ offset
  | .write data => 0#3 ++ data ++ 1#1 ++ offset

/-- Six bytes of a 48-bit number, least significant first. -/
def leBytes6 (v : BitVec 48) : List Byte :=
  [v.extractLsb' 0 8, v.extractLsb' 8 8, v.extractLsb' 16 8, v.extractLsb' 24 8, v.extractLsb' 32 8,
    v.extractLsb' 40 8]

/-- The access of an `MMIO` number. -/
def mmioAccess (v : BitVec 48) : RegAccess :=
  if v.getLsbD 12 then .write (v.extractLsb' 13 32) else .read

/-- Decoding one object of a format from its bytes, lowest address first.  Total: every byte list gives an
operation or a named rejection. -/
def decode (f : Format) (bytes : List Byte) : Decoded :=
  match f, bytes with
  | .mmio, [b0, b1, b2, b3, b4, b5] =>
    let v : BitVec 48 := b5 ++ b4 ++ b3 ++ b2 ++ b1 ++ b0
    if v.extractLsb' 45 3 ≠ 0#3 then .rejected .paddingNotZero
    else decodeMmio (v.extractLsb' 0 12) (mmioAccess v)
  | .txDesc, [b0, b1, b2, b3, c0, c1, c2, c3] => .ok (decodeTxDesc (ofLe4 b0 b1 b2 b3) (ofLe4 c0 c1 c2 c3))
  | .rxDesc, [b0, b1, b2, b3, c0, c1, c2, c3] => .ok (decodeRxDesc (ofLe4 b0 b1 b2 b3) (ofLe4 c0 c1 c2 c3))
  | .mmfr, [b0, b1, b2, b3] => .ok (decodeMmfr (ofLe4 b0 b1 b2 b3))
  | .ppCmd, [b0, b1, b2, b3] => .ok (decodePp (ofLe4 b0 b1 b2 b3))
  | _, _ => .rejected .wrongLength

/-- The format an operation belongs to (R110). -/
def formatOf : Instr → Format
  | .ctrl _ => .mmio
  | .eir _ => .mmio
  | .eimr _ => .mmio
  | .status _ => .mmio
  | .tdsr _ => .mmio
  | .rdsr _ => .mmio
  | .tdar _ => .mmio
  | .rdar _ => .mmio
  | .rxmax _ => .mmio
  | .maclo _ => .mmio
  | .machi _ => .mmio
  | .tdcur _ => .mmio
  | .rdcur _ => .mmio
  | .mmfr _ => .mmio
  | .cntTxSent _ => .mmio
  | .cntTxErr _ => .mmio
  | .cntRxStored _ => .mmio
  | .cntRxNodesc _ => .mmio
  | .cntRxOversize _ => .mmio
  | .cntL2ArpAcc _ => .mmio
  | .cntL2Ip4Acc _ => .mmio
  | .cntL2ArpDrop _ => .mmio
  | .cntL2Ip4Drop _ => .mmio
  | .cntL2OtherDrop _ => .mmio
  | .cntArpBad _ => .mmio
  | .cntIp4Badhdr _ => .mmio
  | .cntIp4Badcsum _ => .mmio
  | .cntIp4Baddst _ => .mmio
  | .cntIp4Badproto _ => .mmio
  | .cntIcmpDrop _ => .mmio
  | .cntUdpBadlen _ => .mmio
  | .cntUdpNoport _ => .mmio
  | .ppCmd _ => .mmio
  | .ppStatus _ => .mmio
  | .p0 _ => .mmio
  | .p1 _ => .mmio
  | .p2 _ => .mmio
  | .p3 _ => .mmio
  | .p4 _ => .mmio
  | .p5 _ => .mmio
  | .p6 _ => .mmio
  | .p7 _ => .mmio
  | .ip4Addr _ => .mmio
  | .ip4Mask _ => .mmio
  | .ip4Gw _ => .mmio
  | .ip4Ttl _ => .mmio
  | .arpSel _ => .mmio
  | .arpIp _ => .mmio
  | .arpMaclo _ => .mmio
  | .arpMachi _ => .mmio
  | .arpTs _ => .mmio
  | .udpPort0 _ => .mmio
  | .udpPort1 _ => .mmio
  | .udpPort2 _ => .mmio
  | .udpPort3 _ => .mmio
  | .udpPort4 _ => .mmio
  | .udpPort5 _ => .mmio
  | .udpPort6 _ => .mmio
  | .udpPort7 _ => .mmio
  | .reserved _ _ => .mmio
  | .txd _ _ => .txDesc
  | .txdStop _ => .txDesc
  | .rxd _ _ => .rxDesc
  | .rxdStop _ => .rxDesc
  | .mdioRead _ _ _ _ => .mmfr
  | .mdioWrite _ _ _ _ => .mmfr
  | .mmfrNoOperation _ => .mmfr
  | .nop => .ppCmd
  | .cksum => .ppCmd
  | .ethHdr => .ppCmd
  | .arpReq => .ppCmd
  | .arpReply => .ppCmd
  | .ip4Hdr => .ppCmd
  | .icmpEchoReq => .ppCmd
  | .icmpEchoReply => .ppCmd
  | .udpHdr _ => .ppCmd
  | .rxClassify => .ppCmd
  | .ip4Nexthop => .ppCmd
  | .arpResolve => .ppCmd
  | .arpUpdate => .ppCmd
  | .udpBind => .ppCmd
  | .udpUnbind => .ppCmd
  | .ppIllegal _ => .ppCmd

/-- The bytes of an access to `offset`. -/
def encodeMmio (offset : BitVec 12) (a : RegAccess) : List Byte := leBytes6 (mmioBits offset a)

/-- The encoder: the bytes of an operation, lowest address first, from the tables of R20 and R110 to R118.  A
descriptor that stops its engine is written with word 1 zero, since its word 1 is not read. -/
def encode : Instr → List Byte
  | .ctrl a => encodeMmio 0x000#12 a
  | .eir a => encodeMmio 0x004#12 a
  | .eimr a => encodeMmio 0x008#12 a
  | .status a => encodeMmio 0x00C#12 a
  | .tdsr a => encodeMmio 0x010#12 a
  | .rdsr a => encodeMmio 0x014#12 a
  | .tdar a => encodeMmio 0x018#12 a
  | .rdar a => encodeMmio 0x01C#12 a
  | .rxmax a => encodeMmio 0x020#12 a
  | .maclo a => encodeMmio 0x024#12 a
  | .machi a => encodeMmio 0x028#12 a
  | .tdcur a => encodeMmio 0x02C#12 a
  | .rdcur a => encodeMmio 0x030#12 a
  | .mmfr a => encodeMmio 0x034#12 a
  | .cntTxSent a => encodeMmio 0x040#12 a
  | .cntTxErr a => encodeMmio 0x044#12 a
  | .cntRxStored a => encodeMmio 0x048#12 a
  | .cntRxNodesc a => encodeMmio 0x04C#12 a
  | .cntRxOversize a => encodeMmio 0x050#12 a
  | .cntL2ArpAcc a => encodeMmio 0x054#12 a
  | .cntL2Ip4Acc a => encodeMmio 0x058#12 a
  | .cntL2ArpDrop a => encodeMmio 0x05C#12 a
  | .cntL2Ip4Drop a => encodeMmio 0x060#12 a
  | .cntL2OtherDrop a => encodeMmio 0x064#12 a
  | .cntArpBad a => encodeMmio 0x068#12 a
  | .cntIp4Badhdr a => encodeMmio 0x06C#12 a
  | .cntIp4Badcsum a => encodeMmio 0x070#12 a
  | .cntIp4Baddst a => encodeMmio 0x074#12 a
  | .cntIp4Badproto a => encodeMmio 0x078#12 a
  | .cntIcmpDrop a => encodeMmio 0x07C#12 a
  | .cntUdpBadlen a => encodeMmio 0x080#12 a
  | .cntUdpNoport a => encodeMmio 0x084#12 a
  | .ppCmd a => encodeMmio 0x100#12 a
  | .ppStatus a => encodeMmio 0x104#12 a
  | .p0 a => encodeMmio 0x108#12 a
  | .p1 a => encodeMmio 0x10C#12 a
  | .p2 a => encodeMmio 0x110#12 a
  | .p3 a => encodeMmio 0x114#12 a
  | .p4 a => encodeMmio 0x118#12 a
  | .p5 a => encodeMmio 0x11C#12 a
  | .p6 a => encodeMmio 0x120#12 a
  | .p7 a => encodeMmio 0x124#12 a
  | .ip4Addr a => encodeMmio 0x140#12 a
  | .ip4Mask a => encodeMmio 0x144#12 a
  | .ip4Gw a => encodeMmio 0x148#12 a
  | .ip4Ttl a => encodeMmio 0x14C#12 a
  | .arpSel a => encodeMmio 0x150#12 a
  | .arpIp a => encodeMmio 0x154#12 a
  | .arpMaclo a => encodeMmio 0x158#12 a
  | .arpMachi a => encodeMmio 0x15C#12 a
  | .arpTs a => encodeMmio 0x160#12 a
  | .udpPort0 a => encodeMmio 0x180#12 a
  | .udpPort1 a => encodeMmio 0x184#12 a
  | .udpPort2 a => encodeMmio 0x188#12 a
  | .udpPort3 a => encodeMmio 0x18C#12 a
  | .udpPort4 a => encodeMmio 0x190#12 a
  | .udpPort5 a => encodeMmio 0x194#12 a
  | .udpPort6 a => encodeMmio 0x198#12 a
  | .udpPort7 a => encodeMmio 0x19C#12 a
  | .reserved offset a => encodeMmio offset a
  | .txd c buf => leBytes4 (descWord true c) ++ leBytes4 buf
  | .txdStop c => leBytes4 (descWord false c) ++ leBytes4 0#32
  | .rxd c buf => leBytes4 (descWord true c) ++ leBytes4 buf
  | .rxdStop c => leBytes4 (descWord false c) ++ leBytes4 0#32
  | .mdioRead pa ra ta data => leBytes4 (mmfrWord 0b10#2 pa ra ta data)
  | .mdioWrite pa ra ta data => leBytes4 (mmfrWord 0b01#2 pa ra ta data)
  | .mmfrNoOperation word => leBytes4 word
  | .nop => leBytes4 0x00000000#32
  | .cksum => leBytes4 0x00000001#32
  | .ethHdr => leBytes4 0x00000002#32
  | .arpReq => leBytes4 0x00000003#32
  | .arpReply => leBytes4 0x00000004#32
  | .ip4Hdr => leBytes4 0x00000005#32
  | .icmpEchoReq => leBytes4 0x00000006#32
  | .icmpEchoReply => leBytes4 0x00000007#32
  | .udpHdr csum => leBytes4 (if csum then 0x00000108#32 else 0x00000008#32)
  | .rxClassify => leBytes4 0x00000009#32
  | .ip4Nexthop => leBytes4 0x0000000A#32
  | .arpResolve => leBytes4 0x0000000B#32
  | .arpUpdate => leBytes4 0x0000000C#32
  | .udpBind => leBytes4 0x0000000D#32
  | .udpUnbind => leBytes4 0x0000000E#32
  | .ppIllegal word => leBytes4 word

/-- The format the model reads a bare word of the opcode table in (log 8).  A word of the table does not say
which register or memory place it was found in, so formats overlap: a width below 32 bits, or 48 bits, is an
`MMIO` access; 64 bits is a Tx descriptor; a 32-bit word is a command if it is a legal one, a management frame
if it starts one, and word 0 of a Tx descriptor otherwise. -/
def tableFormat (nbits w : Nat) : Format :=
  if nbits < 32 ∨ nbits = 48 then .mmio
  else if nbits = 32 then
    if !ppIllegalWord (BitVec.ofNat 32 w) then .ppCmd
    else if mmfrStarts (BitVec.ofNat 32 w) then .mmfr
    else .txDesc
  else .txDesc

/-- The bytes of the object a table word stands for: every bit above `nbits` is zero. -/
def tableBytes (nbits w : Nat) : List Byte :=
  let v := w % 2 ^ nbits
  match tableFormat nbits w with
  | .mmio => leBytes6 (BitVec.ofNat 48 v)
  | .txDesc | .rxDesc => leBytes4 (BitVec.ofNat 32 v) ++ leBytes4 (BitVec.ofNat 32 (v / 2 ^ 32))
  | .mmfr | .ppCmd => leBytes4 (BitVec.ofNat 32 v)

/-- What the decoder reads from a word of spec/opcode_table.json, numbered as the table numbers it. -/
def decodeTableWord (nbits w : Nat) : Option Instr :=
  match decode (tableFormat nbits w) (tableBytes nbits w) with
  | .ok i => some i
  | .rejected _ => none

end Sys2Proof
end

