-- ==== Sys2Proof/Config.lean ====
section
/-! DEFINITION. What the platform or the implementation fixes: the parameters of spec 00_scope R11 and the one free
value of spec 93_implementation_defined (U6). -/

namespace Sys2Proof

/-- The parameters of the model (R11, R82; 93 list 2): `BASE`; `DmaWindow` as the union of closed address ranges
(first, last); and the host constants of 47_driver_sequences that its half of the contract is measured by.  They stand
in the state, no step writes them, and every statement ranges over all their values (log 4). -/
structure Platform where
  /-- `BASE`, the address of the register window. -/
  base : Word
  /-- `DmaWindow`, as a list of closed ranges (first address, last address). -/
  dmaWindow : List (Word × Word)
  /-- `m` of R321, the capacity of the Tx ring; the hardware does not know it (R407). -/
  txCapacity : Nat
  /-- `n` of R320, the capacity of the Rx ring. -/
  rxCapacity : Nat
  /-- `max_frame_size` of R320: every buffer of the Rx ring holds at least so many bytes. -/
  maxFrameSize : Nat
deriving DecidableEq, Repr

/-- The test platform of spec 95_test_vectors part 0, with rings of two descriptors and frames of at most 1514 bytes as
in the example of R320.  DESIGN CHOICE as the platform of the state right after reset (log 4); the spec leaves the
parameters open. -/
def Platform.reference : Platform where
  base := 0x40000000#32
  dmaWindow := [(0x20000000#32, 0x2000FFFF#32)]
  txCapacity := 2
  rxCapacity := 2
  maxFrameSize := 1514

namespace Config

/-- Size of the register window in bytes (R11). -/
abbrev windowSize : Nat := 0x1000

/-- `TX_MINLEN` (R11). -/
abbrev txMinLen : Nat := 14

/-- `TX_MAXLEN` (R11). -/
abbrev txMaxLen : Nat := 1514

/-- FREE VALUE (93 U6; R390): whether an MDIO write that a reset abandons has reached the PHY.  The
argument is the state's counter `choices`.  No body: nothing can be proved of its value (log 10). -/
opaque abandonedWriteReached : Nat → Bool

end Config
end Sys2Proof
end

