-- ==== Sys2Proof/Machine/State.lean ====
section
/-! DEFINITION. The architectural state of ESL-EMAC (spec 10_state), the inputs and outputs of the block (00_scope R9),
and the state right after reset (R45). -/

namespace Sys2Proof.Machine

/-- The eighteen event counters (R32). -/
structure Counters where
  /-- `CNT_TX_SENT`: frames TXDMA handed to WIRE or to the loopback path -/
  txSent : Word
  /-- `CNT_TX_ERR`: Tx descriptors completed with `ERR = 1` -/
  txErr : Word
  /-- `CNT_RX_STORED`: frames RXDMA stored -/
  rxStored : Word
  /-- `CNT_RX_NODESC`: frames dropped for want of a ready Rx descriptor -/
  rxNodesc : Word
  /-- `CNT_RX_OVERSIZE`: frames longer than `RXMAX` -/
  rxOversize : Word
  /-- `CNT_L2_ARP_ACC`: frames accepted as ARP -/
  l2ArpAcc : Word
  /-- `CNT_L2_IP4_ACC`: frames accepted as IPv4 -/
  l2Ip4Acc : Word
  /-- `CNT_L2_ARP_DROP`: ARP-type frames too short -/
  l2ArpDrop : Word
  /-- `CNT_L2_IP4_DROP`: IPv4-type frames too short -/
  l2Ip4Drop : Word
  /-- `CNT_L2_OTHER_DROP`: runts and other EtherTypes -/
  l2OtherDrop : Word
  /-- `CNT_ARP_BAD`: ARP packets with unsupported fields -/
  arpBad : Word
  /-- `CNT_IP4_BADHDR`: IPv4 version, length or fragmentation -/
  ip4Badhdr : Word
  /-- `CNT_IP4_BADCSUM`: IPv4 bad header checksum -/
  ip4Badcsum : Word
  /-- `CNT_IP4_BADDST`: IPv4 destination not local -/
  ip4Baddst : Word
  /-- `CNT_IP4_BADPROTO`: IPv4 unknown protocol -/
  ip4Badproto : Word
  /-- `CNT_ICMP_DROP`: ICMP not an echo, or too short -/
  icmpDrop : Word
  /-- `CNT_UDP_BADLEN`: UDP inconsistent length -/
  udpBadlen : Word
  /-- `CNT_UDP_NOPORT`: UDP port not bound -/
  udpNoport : Word
deriving DecidableEq, Repr

/-- The names of the counters, for `count(C)` (R13). -/
inductive CounterName where
  | txSent
  | txErr
  | rxStored
  | rxNodesc
  | rxOversize
  | l2ArpAcc
  | l2Ip4Acc
  | l2ArpDrop
  | l2Ip4Drop
  | l2OtherDrop
  | arpBad
  | ip4Badhdr
  | ip4Badcsum
  | ip4Baddst
  | ip4Badproto
  | icmpDrop
  | udpBadlen
  | udpNoport
deriving DecidableEq, Repr

/-- The operand registers `P0` .. `P7` of the packet processor (R35). -/
structure PRegs where
  p0 : Word
  p1 : Word
  p2 : Word
  p3 : Word
  p4 : Word
  p5 : Word
  p6 : Word
  p7 : Word
deriving DecidableEq, Repr

/-- The state of an ARP cache entry (R39, R290); the fourth code of the 2-bit field never occurs. -/
inductive ArpState where
  | empty
  | pending
  | resolved
deriving DecidableEq, Repr

/-- One entry of the ARP cache (R39). -/
structure ArpEntry where
  state : ArpState
  ip : Word
  mac : Mac
  /-- the last-access timestamp -/
  ts : Word
deriving DecidableEq, Repr

/-- The result codes of packet-processor commands (R351); no other value ever appears. -/
inductive PpResult where
  /-- 0x00 `OK` -/
  | ok
  /-- 0x01 `ERR_BAD_CMD` -/
  | errBadCmd
  /-- 0x02 `ERR_BAD_ARG` -/
  | errBadArg
  /-- 0x03 `ERR_BUS` -/
  | errBus
  /-- 0x04 `ERR_PORT_IN_USE` -/
  | errPortInUse
  /-- 0x05 `ERR_UNBOUND` -/
  | errUnbound
  /-- 0x06 `ERR_NO_ROUTE` -/
  | errNoRoute
  /-- 0x10 `ARP_HIT` -/
  | arpHit
  /-- 0x11 `ARP_PENDING` -/
  | arpPending
  /-- 0x12 `ARP_NEW` -/
  | arpNew
  /-- 0x20 `RX_ARP_REQUEST` -/
  | rxArpRequest
  /-- 0x21 `RX_ARP_REPLY` -/
  | rxArpReply
  /-- 0x22 `RX_ARP_OTHER` -/
  | rxArpOther
  /-- 0x23 `RX_ICMP_ECHO_REQUEST` -/
  | rxIcmpEchoRequest
  /-- 0x24 `RX_ICMP_ECHO_REPLY` -/
  | rxIcmpEchoReply
  /-- 0x25 `RX_UDP` -/
  | rxUdp
  /-- 0x30 `DROP_L2_RUNT` -/
  | dropL2Runt
  /-- 0x31 `DROP_L2_TYPE` -/
  | dropL2Type
  /-- 0x32 `DROP_L2_ARP_SHORT` -/
  | dropL2ArpShort
  /-- 0x33 `DROP_L2_IP4_SHORT` -/
  | dropL2Ip4Short
  /-- 0x34 `DROP_ARP_BAD` -/
  | dropArpBad
  /-- 0x35 `DROP_IP4_HDR` -/
  | dropIp4Hdr
  /-- 0x36 `DROP_IP4_CSUM` -/
  | dropIp4Csum
  /-- 0x37 `DROP_IP4_DST` -/
  | dropIp4Dst
  /-- 0x38 `DROP_IP4_PROTO` -/
  | dropIp4Proto
  /-- 0x39 `DROP_ICMP` -/
  | dropIcmp
  /-- 0x3A `DROP_UDP_LEN` -/
  | dropUdpLen
  /-- 0x3B `DROP_UDP_PORT` -/
  | dropUdpPort
deriving DecidableEq, Repr

/-- What the PHY sees of the block (R9, R185): a read with the value WIRE answered, and a write. -/
inductive PhyOp where
  | read (pa ra : BitVec 5) (value : Half)
  | write (pa ra : BitVec 5) (value : Half)
deriving DecidableEq, Repr

/-- Width of a host access on the system bus. -/
inductive Width where
  | w8
  | w16
  | w32
deriving DecidableEq, Repr

/-- One turn of the schedule: which agent moves next, with the input the environment gives it (R7, R9; log 1). -/
inductive Turn where
  /-- HOST reads: a register (`RD`) if the address is in the register window, else system memory (`MR32`) -/
  | hostRead (addr : Word) (width : Width)
  /-- HOST writes: a register (`WR`) or system memory (`MW32`) -/
  | hostWrite (addr : Word) (width : Width) (data : Word)
  /-- HOST stores bytes at increasing addresses of system memory (`MWB`) -/
  | hostStore (addr : Word) (bytes : List Byte)
  /-- TXDMA -/
  | txdma
  /-- MDIO engine; `answer` is what WIRE answers to a `Phy.read` in this step (R185) -/
  | mdio (answer : Half)
  /-- PP -/
  | pp
  /-- WIRE offers a frame to RXDMA (R205) -/
  | wire (frame : List Byte)
  /-- hardware reset (R390) -/
  | reset
deriving DecidableEq, Repr

/-- Why a run stops: the host has left the contract of spec 70_reset, or the address does not exist.  No
instruction raises a fault; Machine/Contract.lean and Machine/Fetch.lean do, around them. -/
inductive Fault where
  /-- U1 (R91, R400): the host has touched a descriptor or buffer the hardware owns.  Raised by the host's memory access
  while the ring is active, and by the write that activates it (or an engine's turn) if it happened before.  Safe: the
  spec leaves what follows unspecified. -/
  | ownership
  /-- U2 (R401): a descriptor was handed over in the wrong order.  Raised by the write that activates its ring, or an
  engine's turn.  Safe. -/
  | handover
  /-- U3 (R407) and U4 (R96): rings, buffers or a pending footprint overlap.  Raised by the turn of an engine or of the PP,
  by a host store, and by the write that activates a ring whose descriptors a completed command overlapped.  Safe. -/
  | sharedMemory
  /-- U4 (R96): a host access to the footprint of a pending command.  Raised by the host's memory accesses.  Safe. -/
  | ppFootprint
  /-- A host memory access that runs past 0xFFFFFFFF (R80): no such address.  Safe. -/
  | addressSpace
deriving DecidableEq, Repr

/-- What the model remembers of a hand-over (R400, R401; log 13): word 0 of `desc` stands with `OWN = 1`.  What has been
broken since is kept as the first breach, measured as a Tx descriptor and as an Rx descriptor. -/
structure Handover where
  desc : Word
  /-- a store has touched word 1 since -/
  word1Since : Bool
  /-- the breach, should the descriptor turn out to be of the Tx ring as it is now -/
  tx : Option Fault
  /-- the breach, should it turn out to be of the Rx ring as it is now -/
  rx : Option Fault
  /-- the breach, should the Rx ring be set up by a later write to `RDSR` (R320): what was broken since the descriptor
  was last built anew -/
  rxAnew : Option Fault
  /-- the same for the Tx ring and `TDSR` -/
  txAnew : Option Fault
deriving DecidableEq, Repr

/-- System memory: (address, byte) pairs in the canonical form of `memoryWf` (Machine/Ops.lean). -/
abbrev Memory := List Host.Cell

/-- The whole state.  Each field cites the rule that names it; INVENTORY.md lists them. -/
structure State where
  /-- `BASE` and `DmaWindow` (R11); never written -/
  platform : Platform
  /-- `CTRL.EN` (R22) -/
  ctrlEn : Bool
  /-- `CTRL.LOOP` (R22) -/
  ctrlLoop : Bool
  /-- `EIR` bits 4:0 (R23) -/
  eir : BitVec 5
  /-- `EIMR` bits 4:0 (R24) -/
  eimr : BitVec 5
  /-- `STATUS.TX_ACTIVE` (R25) -/
  txActive : Bool
  /-- `STATUS.RX_ACTIVE` (R25) -/
  rxActive : Bool
  /-- `STATUS.MDIO_BUSY` (R25) -/
  mdioBusy : Bool
  /-- `STATUS.PP_BUSY` (R25) -/
  ppBusy : Bool
  /-- `STATUS.HALTED` (R25) -/
  halted : Bool
  /-- `TDSR` (R26) -/
  tdsr : Word
  /-- `RDSR` (R26) -/
  rdsr : Word
  /-- `RXMAX` bits 15:0 (R28) -/
  rxmax : Half
  /-- `MACLO` (R29) -/
  maclo : Word
  /-- `MACHI` bits 15:0 (R29) -/
  machi : Half
  /-- `TDCUR`, the ring pointer of TXDMA (R30) -/
  tdcur : Word
  /-- `RDCUR`, the ring pointer of RXDMA (R30) -/
  rdcur : Word
  /-- `MMFR` (R31) -/
  mmfr : Word
  /-- the counters (R32) -/
  counters : Counters
  /-- `PP_CMD` (R33) -/
  ppCmd : Word
  /-- `PP_STATUS.RESULT` (R34) -/
  ppResult : PpResult
  /-- `P0` .. `P7` (R35) -/
  p : PRegs
  /-- `IP4_ADDR` (R36) -/
  ip4Addr : Word
  /-- `IP4_MASK` (R36) -/
  ip4Mask : Word
  /-- `IP4_GW` (R36) -/
  ip4Gw : Word
  /-- `IP4_TTL` bits 7:0 (R37) -/
  ip4Ttl : Byte
  /-- `ARP_SEL` bits 3:0 (R39) -/
  arpSel : BitVec 4
  /-- the ARP cache (R39) -/
  arp : Vector ArpEntry 16
  /-- the UDP port table (R41) -/
  udpPort : Vector Half 8
  /-- system memory (R81) -/
  mem : Memory
  /-- output: the frames handed to WIRE, oldest first (R9) -/
  wireTx : List (List Byte)
  /-- output: the operations the PHY has seen, oldest first (R9, R185) -/
  phyLog : List PhyOp
  /-- output: what the last host read returned (R121); the model's own -/
  hostData : Word
  /-- input: the frame WIRE offers in this step (R205); the model's own -/
  wireIn : List Byte
  /-- input: what WIRE answers to `Phy.read` in this step (R185); the model's own -/
  phyIn : Half
  /-- input: the turns still to come, the next one first (R7); the model's own (log 1) -/
  schedule : List Turn
  /-- the hand-overs the host has made (R401); the model's own (log 13) -/
  handed : List Handover
  /-- how often the free value of U6 has been asked for; the model's own (log 10) -/
  choices : Nat
deriving DecidableEq, Repr

/-- Why the machine gives an action no meaning. -/
inductive Refusal where
  /-- an instruction whose arm is not written yet; no arm answers so.  Safe. -/
  | notModelled (mnemonic : String)
  /-- U5 (R83): an access to the register window that is not a 32-bit access at a multiple of 4.  Raised by the host's
  accesses.  Safe. -/
  | registerAccess
deriving DecidableEq, Repr

/-- All counters zero (R32). -/
def Counters.zero : Counters :=
  ⟨0, 0, 0, 0, 0, 0, 0, 0, 0, 0, 0, 0, 0, 0, 0, 0, 0, 0⟩

/-- The zeroed entry (R39). -/
def ArpEntry.zero : ArpEntry := ⟨.empty, 0, 0, 0⟩

/-- The machine right after reset (R45, R391): every register zero but `IP4_TTL = 0x40`.  The platform, the ports and
the model's own fields are DESIGN CHOICES (log 1, 4, 10, 11, 13); memory has nothing listed (log 5). -/
def State.reset : State where
  platform := Platform.reference
  ctrlEn := false
  ctrlLoop := false
  eir := 0
  eimr := 0
  txActive := false
  rxActive := false
  mdioBusy := false
  ppBusy := false
  halted := false
  tdsr := 0
  rdsr := 0
  rxmax := 0
  maclo := 0
  machi := 0
  tdcur := 0
  rdcur := 0
  mmfr := 0
  counters := Counters.zero
  ppCmd := 0
  ppResult := .ok
  p := ⟨0, 0, 0, 0, 0, 0, 0, 0⟩
  ip4Addr := 0
  ip4Mask := 0
  ip4Gw := 0
  ip4Ttl := 0x40
  arpSel := 0
  arp := Vector.replicate 16 ArpEntry.zero
  udpPort := Vector.replicate 8 0
  mem := []
  wireTx := []
  phyLog := []
  hostData := 0
  wireIn := []
  phyIn := 0
  schedule := []
  handed := []
  choices := 0

end Sys2Proof.Machine
end

