-- ==== Sys2Proof/Machine/Flags.lean ====
section
/-! DEFINITION. Status word, events, interrupt output, counters and result codes: spec 10_state R23 to R34, 60_exceptions
R351, R354, R355. -/

namespace Sys2Proof.Machine

/-- The five events (R354). -/
inductive EventBit where
  | mii
  | txf
  | rxf
  | ppd
  | berr
deriving DecidableEq, Repr

/-- The bit of `EIR` an event sets (R23). -/
def EventBit.mask : EventBit → BitVec 5
  | .mii => 0b00001#5
  | .txf => 0b00010#5
  | .rxf => 0b00100#5
  | .ppd => 0b01000#5
  | .berr => 0b10000#5

/-- `set_event(E)` (R13, R356): setting a set bit leaves it set. -/
def setEvent (e : EventBit) (s : State) : State := { s with eir := s.eir ||| e.mask }

/-- An event gated by a descriptor's `IOC` bit (R357). -/
def setEventIf (ioc : Bool) (e : EventBit) (s : State) : State := if ioc then setEvent e s else s

/-- The interrupt output (R355). -/
def State.irq (s : State) : Bool := s.eir &&& s.eimr != 0

/-- `STATUS` as read (R141): `{0[31:6], IRQ, HALTED, PP_BUSY, MDIO_BUSY, RX_ACTIVE, TX_ACTIVE}`. -/
def statusWord (s : State) : Word :=
  0#26 ++ BitVec.ofBool s.irq ++ BitVec.ofBool s.halted ++ BitVec.ofBool s.ppBusy ++
    BitVec.ofBool s.mdioBusy ++ BitVec.ofBool s.rxActive ++ BitVec.ofBool s.txActive

/-- `CTRL` as read (R140): `{0[31:2], LOOP, EN}`. -/
def ctrlWord (s : State) : Word := 0#30 ++ BitVec.ofBool s.ctrlLoop ++ BitVec.ofBool s.ctrlEn

/-- The numeric result codes (R351). -/
def PpResult.code : PpResult → Byte
  | .ok => 0x00#8
  | .errBadCmd => 0x01#8
  | .errBadArg => 0x02#8
  | .errBus => 0x03#8
  | .errPortInUse => 0x04#8
  | .errUnbound => 0x05#8
  | .errNoRoute => 0x06#8
  | .arpHit => 0x10#8
  | .arpPending => 0x11#8
  | .arpNew => 0x12#8
  | .rxArpRequest => 0x20#8
  | .rxArpReply => 0x21#8
  | .rxArpOther => 0x22#8
  | .rxIcmpEchoRequest => 0x23#8
  | .rxIcmpEchoReply => 0x24#8
  | .rxUdp => 0x25#8
  | .dropL2Runt => 0x30#8
  | .dropL2Type => 0x31#8
  | .dropL2ArpShort => 0x32#8
  | .dropL2Ip4Short => 0x33#8
  | .dropArpBad => 0x34#8
  | .dropIp4Hdr => 0x35#8
  | .dropIp4Csum => 0x36#8
  | .dropIp4Dst => 0x37#8
  | .dropIp4Proto => 0x38#8
  | .dropIcmp => 0x39#8
  | .dropUdpLen => 0x3A#8
  | .dropUdpPort => 0x3B#8

/-- `PP_STATUS` as read (R155): `{0[31:16], RESULT[7:0], 0[7:1], PP_BUSY}`. -/
def ppStatusWord (s : State) : Word := 0#16 ++ s.ppResult.code ++ 0#7 ++ BitVec.ofBool s.ppBusy

/-- The 2-bit code of an entry's state (R39). -/
def ArpState.code : ArpState → BitVec 2
  | .empty => 0
  | .pending => 1
  | .resolved => 2

/-- The value of a counter. -/
def Counters.get (c : Counters) : CounterName → Word
  | .txSent => c.txSent
  | .txErr => c.txErr
  | .rxStored => c.rxStored
  | .rxNodesc => c.rxNodesc
  | .rxOversize => c.rxOversize
  | .l2ArpAcc => c.l2ArpAcc
  | .l2Ip4Acc => c.l2Ip4Acc
  | .l2ArpDrop => c.l2ArpDrop
  | .l2Ip4Drop => c.l2Ip4Drop
  | .l2OtherDrop => c.l2OtherDrop
  | .arpBad => c.arpBad
  | .ip4Badhdr => c.ip4Badhdr
  | .ip4Badcsum => c.ip4Badcsum
  | .ip4Baddst => c.ip4Baddst
  | .ip4Badproto => c.ip4Badproto
  | .icmpDrop => c.icmpDrop
  | .udpBadlen => c.udpBadlen
  | .udpNoport => c.udpNoport

/-- One counter incremented modulo 2^32 (R32, R233). -/
def Counters.bump (c : Counters) : CounterName → Counters
  | .txSent => { c with txSent := c.txSent + 1 }
  | .txErr => { c with txErr := c.txErr + 1 }
  | .rxStored => { c with rxStored := c.rxStored + 1 }
  | .rxNodesc => { c with rxNodesc := c.rxNodesc + 1 }
  | .rxOversize => { c with rxOversize := c.rxOversize + 1 }
  | .l2ArpAcc => { c with l2ArpAcc := c.l2ArpAcc + 1 }
  | .l2Ip4Acc => { c with l2Ip4Acc := c.l2Ip4Acc + 1 }
  | .l2ArpDrop => { c with l2ArpDrop := c.l2ArpDrop + 1 }
  | .l2Ip4Drop => { c with l2Ip4Drop := c.l2Ip4Drop + 1 }
  | .l2OtherDrop => { c with l2OtherDrop := c.l2OtherDrop + 1 }
  | .arpBad => { c with arpBad := c.arpBad + 1 }
  | .ip4Badhdr => { c with ip4Badhdr := c.ip4Badhdr + 1 }
  | .ip4Badcsum => { c with ip4Badcsum := c.ip4Badcsum + 1 }
  | .ip4Baddst => { c with ip4Baddst := c.ip4Baddst + 1 }
  | .ip4Badproto => { c with ip4Badproto := c.ip4Badproto + 1 }
  | .icmpDrop => { c with icmpDrop := c.icmpDrop + 1 }
  | .udpBadlen => { c with udpBadlen := c.udpBadlen + 1 }
  | .udpNoport => { c with udpNoport := c.udpNoport + 1 }

/-- `count(C)` (R13). -/
def count (n : CounterName) (s : State) : State := { s with counters := s.counters.bump n }

end Sys2Proof.Machine
end

