-- ==== Sys2Proof/Machine/Ops.lean ====
section
/-! DEFINITION. The named operations over memory and registers: spec 20_memory (R80 to R92), the pseudocode primitives of
00_scope R13 and R15, the register-access shapes of 40_mmio, reset (R390), the bus-error action (R353) and the
completion of a packet-processor command (R221, R222). -/

namespace Sys2Proof.Machine

/-- What a step answers. -/
abbrev Result := Host.Outcome State Fault Refusal

/-! ## System memory (R81) -/

/-- What an address that is not listed reads as.  DESIGN CHOICE (log 5): the spec gives no contents of system memory
after power-on; 95_test_vectors part 3 starts its programs with memory zero. -/
def unlistedByte : Byte := 0#8

/-- Reading one byte. -/
def loadByte : Memory → Nat → Byte
  | [], _ => unlistedByte
  | (k, b) :: t, a => if k = a then b else loadByte t a

/-- Listing a byte in front, unless an unlisted address reads as it anyway. -/
def consByte (a : Nat) (b : Byte) (t : Memory) : Memory := if b = unlistedByte then t else (a, b) :: t

/-- Writing one byte, keeping the canonical form. -/
def storeByte : Memory → Nat → Byte → Memory
  | [], a, b => consByte a b []
  | (k, c) :: t, a, b =>
    if a < k then consByte a b ((k, c) :: t)
    else if a = k then consByte a b t
    else (k, c) :: storeByte t a b

/-- The canonical form: addresses of the 32-bit space, strictly rising, no entry equal to what an unlisted address
reads as. -/
def memoryWfFrom (low : Nat) : Memory → Bool
  | [] => true
  | (k, b) :: t => low ≤ k && k < 2 ^ 32 && b != unlistedByte && memoryWfFrom (k + 1) t

/-- `Memory.wf`: the memory is in canonical form, so that equal memories are equal data. -/
def memoryWf (m : Memory) : Bool := memoryWfFrom 0 m

/-- `Memory.wf`, under the name a reader looks for. -/
abbrev Memory.wf (m : Memory) : Bool := memoryWf m

/-- `MemRead(addr, n)` (R13): `n` bytes at increasing addresses. -/
def loadBytes (m : Memory) (a : Word) : Nat → List Byte
  | 0 => []
  | n + 1 => loadByte m a.toNat :: loadBytes m (a + 1#32) n

/-- `MemWrite(addr, n, v)` (R13): the bytes of `v` at increasing addresses. -/
def storeBytes (m : Memory) (a : Word) : List Byte → Memory
  | [] => m
  | b :: t => storeBytes (storeByte m a.toNat b) (a + 1#32) t

/-- `MemRead32` (R13, R85): little-endian. -/
def load32 (m : Memory) (a : Word) : Word :=
  ofLe4 (loadByte m a.toNat) (loadByte m (a + 1#32).toNat) (loadByte m (a + 2#32).toNat)
    (loadByte m (a + 3#32).toNat)

/-- `MemWrite32` (R13, R85): little-endian. -/
def store32 (m : Memory) (a : Word) (v : Word) : Memory := storeBytes m a (leBytes4 v)

/-- One byte at an address of the space. -/
def load8 (m : Memory) (a : Word) : Byte := loadByte m a.toNat

/-- `be16(addr)` (R13, R84). -/
def loadBe16 (m : Memory) (a : Word) : Half := load8 m a ++ load8 m (a + 1#32)

/-- `be32(addr)` (R13, R84). -/
def loadBe32 (m : Memory) (a : Word) : Word :=
  load8 m a ++ load8 m (a + 1#32) ++ load8 m (a + 2#32) ++ load8 m (a + 3#32)

/-- `get_mac(addr)` (R13). -/
def loadMac (m : Memory) (a : Word) : Mac :=
  load8 m a ++ load8 m (a + 1#32) ++ load8 m (a + 2#32) ++ load8 m (a + 3#32) ++ load8 m (a + 4#32) ++
    load8 m (a + 5#32)

/-- The two bytes of a `u16`, most significant first. -/
def beBytes2 (v : Half) : List Byte := [v.extractLsb' 8 8, v.extractLsb' 0 8]

/-- The four bytes of a `u32`, most significant first. -/
def beBytes4 (v : Word) : List Byte :=
  [v.extractLsb' 24 8, v.extractLsb' 16 8, v.extractLsb' 8 8, v.extractLsb' 0 8]

/-- The six bytes of a MAC address in wire order (R14). -/
def macBytes (m : Mac) : List Byte :=
  [m.extractLsb' 40 8, m.extractLsb' 32 8, m.extractLsb' 24 8, m.extractLsb' 16 8, m.extractLsb' 8 8,
    m.extractLsb' 0 8]

/-- `put8(addr, v)` (R13). -/
def put8 (a : Word) (v : Byte) (m : Memory) : Memory := storeBytes m a [v]

/-- `put_be16(addr, v)` (R13). -/
def putBe16 (a : Word) (v : Half) (m : Memory) : Memory := storeBytes m a (beBytes2 v)

/-- `put_be32(addr, v)` (R13). -/
def putBe32 (a : Word) (v : Word) (m : Memory) : Memory := storeBytes m a (beBytes4 v)

/-- `put_mac(addr, m)` (R13). -/
def putMac (a : Word) (v : Mac) (m : Memory) : Memory := storeBytes m a (macBytes v)

/-! ## Admission (R82) and the register window (R83) -/

/-- The address lies in the register window `[BASE, BASE + 0x1000)` (R11, R80). -/
def inWindow (pf : Platform) (a : Nat) : Bool :=
  pf.base.toNat ≤ a && a < pf.base.toNat + Config.windowSize

/-- The address is in `DmaWindow`; the register window is no part of it (R82). -/
def inDmaWindow (pf : Platform) (a : Nat) : Bool :=
  pf.dmaWindow.any (fun r => r.1.toNat ≤ a && a ≤ r.2.toNat) && !inWindow pf a

/-- Every address of `[a, a + n)` is in `DmaWindow`. -/
def allInDmaWindow (pf : Platform) (a : Nat) : Nat → Bool
  | 0 => true
  | n + 1 => inDmaWindow pf a && allInDmaWindow pf (a + 1) n

/-- `admitted(addr, n)` (R82): an empty range, or one that does not wrap and lies in `DmaWindow`. -/
def admitted (pf : Platform) (a : Word) (n : Nat) : Bool :=
  n == 0 || (a.toNat + n ≤ 2 ^ 32 && allInDmaWindow pf a.toNat n)

/-! ## The one's-complement sum (R15) -/

/-- The sum of the big-endian 16-bit words of a byte list, an odd list completed by one zero byte. -/
def wordSum : List Byte → Nat
  | [] => 0
  | [b] => b.toNat * 256
  | b :: c :: t => b.toNat * 256 + c.toNat + wordSum t

/-- The end-around carry loop: while the value exceeds 0xFFFF, its low 16 bits plus its bits above 15. -/
def foldLoop : Nat → Nat → Nat
  | 0, v => v
  | k + 1, v => if v > 0xFFFF then foldLoop k (v % 0x10000 + v / 0x10000) else v

/-- The loop run to its end: `v / 0x10000 + 1` turns are always enough (`foldCarry_le`). -/
def foldCarry (v : Nat) : Nat := foldLoop (v / 0x10000 + 1) v

/-- `ocsum(d, s)` (R15). -/
def ocsum (d : List Byte) (s : Half) : Half := BitVec.ofNat 16 (foldCarry (s.toNat + wordSum d))

/-- `cksum(d, s)` (R15). -/
def cksumOf (d : List Byte) (s : Half) : Half := ~~~ ocsum d s

/-! ## Register accesses (40_mmio): the shapes every register's rule has -/

/-- A host read returns `v` and changes nothing of the block (R88). -/
def readReg (v : Word) (s : State) : State := { s with hostData := v }

/-- A read-only register: a write is ignored (R162). -/
def accessReadOnly (v : Word) (a : RegAccess) (s : State) : Result :=
  match a with
  | .read => .next (readReg v s)
  | .write _ => .next s

/-- A register whose write is accepted when `ok` and is ignored otherwise (R162). -/
def accessGated (v : Word) (ok : Bool) (write : Word → State) (a : RegAccess) (s : State) : Result :=
  match a with
  | .read => .next (readReg v s)
  | .write d => .next (if ok then write d else s)

/-! ## Reset (R390) -/

/-- An MDIO write is pending (R180): a reset would abandon it. -/
def mdioWritePending (s : State) : Bool :=
  s.mdioBusy && s.mmfr.extractLsb' 30 2 == 0b01#2 && s.mmfr.extractLsb' 28 2 == 0b01#2

/-- `soft_reset() = hardware reset` (R390): every register, flag, counter, ARP entry and UDP slot at its reset value;
system memory, the PHY, the platform and the inputs and outputs untouched (R392).  Whether an abandoned MDIO write
reached the PHY is a free value (U6; log 10). -/
def resetBlock (s : State) : State :=
  { State.reset with
    platform := s.platform
    mem := s.mem
    wireTx := s.wireTx
    phyLog :=
      if mdioWritePending s && Config.abandonedWriteReached s.choices then
        s.phyLog ++ [.write (mmfrPa s.mmfr) (mmfrRa s.mmfr) (s.mmfr.extractLsb' 0 16)]
      else s.phyLog
    hostData := s.hostData
    wireIn := s.wireIn
    phyIn := s.phyIn
    schedule := s.schedule
    handed := s.handed
    choices := if mdioWritePending s then s.choices + 1 else s.choices }

/-! ## The bus-error action (R353): the one exception of the DMA engines -/

/-- `raise BusError`: `EIR.BERR`, `HALTED`, both rings inactive; nothing else changes. -/
def busError (s : State) : State :=
  setEvent .berr { s with halted := true, txActive := false, rxActive := false }

/-! ## Completion of a packet-processor command (R221, R222) -/

/-- How the effects of a command end: `raise PPError(code)`, or a result with the state it leaves. -/
inductive PpEnd where
  | raised (code : PpResult)
  | done (code : PpResult) (s : State)
deriving DecidableEq, Repr

/-- `PP_STATUS.RESULT <- r; PP_BUSY <- 0; set_event(PPD)` (R221). -/
def ppFinish (r : PpResult) (s : State) : State :=
  setEvent .ppd { s with ppResult := r, ppBusy := false }

/-- The completion step of a command with R222's order of checks: `check` reads registers and tables only, then the
footprint `[foot, foot + len)` is admitted as a whole, then `effect` runs (it may still raise).  An error leaves no
other effect than its code, `PP_BUSY` and `PPD`. -/
def ppExecute (check : Option PpResult) (foot : Word) (len : Nat) (effect : PpEnd) (s : State) : State :=
  match check with
  | some code => ppFinish code s
  | none =>
    if admitted s.platform foot len then
      match effect with
      | .raised code => ppFinish code s
      | .done code t => ppFinish code t
    else ppFinish .errBus s

/-- The PP has an enabled step exactly when `PP_BUSY = 1` (R221); without it nothing happens (log 2). -/
def ppComplete (check : Option PpResult) (foot : Word) (len : Nat) (effect : PpEnd) (s : State) : Result :=
  .next (if s.ppBusy then ppExecute check foot len effect s else s)

end Sys2Proof.Machine
end

