-- ==== Sys2Proof/Machine/Operands.lean ====
section
/-! DEFINITION. The operand forms: checked widths (R115, R222), register form of MAC and IPv4 addresses and ports (R14),
the frame offsets of R116, and the views of the tables a register reads. -/

namespace Sys2Proof.Machine

/-- A "checked" `u16` operand: the bits above 15 are zero (R115, R222). -/
def fits16 (v : Word) : Bool := v.extractLsb' 16 16 == 0#16

/-- A "checked" `u8` operand: the bits above 7 are zero (R115, R222). -/
def fits8 (v : Word) : Bool := v.extractLsb' 8 24 == 0#24

/-- The low 16 bits of an operand. -/
def lo16 (v : Word) : Half := v.extractLsb' 0 16

/-- The low 8 bits of an operand. -/
def lo8 (v : Word) : Byte := v.extractLsb' 0 8

/-- The MAC address of a `LO`, `HI` pair (R14). -/
def macOf (hi : Half) (lo : Word) : Mac := hi ++ lo

/-- The `LO` register form of a MAC address (R14). -/
def macLo (m : Mac) : Word := m.extractLsb' 0 32

/-- The `HI` register form of a MAC address, zero above bit 15 (R14). -/
def macHi (m : Mac) : Word := (m.extractLsb' 32 16).setWidth 32

/-- The station MAC address `{MACHI[15:0], MACLO}` (R14, R29). -/
def station (s : State) : Mac := macOf s.machi s.maclo

/-- The broadcast MAC address (R14, R117). -/
def broadcastMac : Mac := 0xFFFFFFFFFFFF#48

/-- A length or an index as an operand value. -/
def ofLen (n : Nat) : Word := BitVec.ofNat 32 n

/-- The frame's first byte, `F`, as the commands take it in `P0` (R116). -/
def frameBase (s : State) : Word := s.p.p0

/-- The entry the ARP window shows (R39, R159). -/
def selectedEntry (s : State) : ArpEntry := s.arp[s.arpSel.toNat]'(by have := s.arpSel.isLt; omega)

/-- `ARP_MACHI` as read (R159): `{0[31:18], state, mac[47:32]}`. -/
def arpMachiWord (e : ArpEntry) : Word := 0#14 ++ e.state.code ++ e.mac.extractLsb' 32 16

/-- `UDP_PORTk` as read (R160): `{0[31:16], port[k]}`. -/
def udpPortWord (s : State) (k : Fin 8) : Word := (s.udpPort[k]).setWidth 32

/-- `EIR` as read (R142). -/
def eirWord (s : State) : Word := s.eir.setWidth 32

/-- `EIMR` as read (R144). -/
def eimrWord (s : State) : Word := s.eimr.setWidth 32

end Sys2Proof.Machine
end

