-- ==== Sys2Proof/Machine/Mdio.lean ====
section
/-! DEFINITION. The meanings of the management frames, spec 41_mdio R180 to R187: the completion step of the MDIO engine. -/

namespace Sys2Proof.Machine

/-- The end both operations share (R181, R182): `MDIO_BUSY <- 0`, `set_event(MII)`. -/
def mdioDone (s : State) : State := setEvent .mii { s with mdioBusy := false }

/-- `MDIO_READ` completion (R181): the value WIRE answers, a free input (R185), replaces bits 15:0 of `MMFR`.  The
engine has an enabled step exactly while `MDIO_BUSY = 1` (R180; log 2). -/
def execMdioRead (pa ra : BitVec 5) (_ta : BitVec 2) (_data : Half) (s : State) : Result :=
  .next (if s.mdioBusy then
      mdioDone
        { s with
          mmfr := s.mmfr.extractLsb' 16 16 ++ s.phyIn
          phyLog := s.phyLog ++ [.read pa ra s.phyIn] }
    else s)

/-- `MDIO_WRITE` completion (R182): `MMFR` is unchanged, the PHY takes the value. -/
def execMdioWrite (pa ra : BitVec 5) (_ta : BitVec 2) (data : Half) (s : State) : Result :=
  .next (if s.mdioBusy then mdioDone { s with phyLog := s.phyLog ++ [.write pa ra data] } else s)

/-- Any other management word (R183): it is stored (unless an operation is pending, R184) and starts nothing: no
busy flag, no event, nothing to the PHY.  On the engine's turn the word is in `MMFR` already (log 17). -/
def execMmfrNoOperation (word : Word) (s : State) : Result :=
  .next (if s.mdioBusy then s else { s with mmfr := word })

/-- What happens to the reference PHY of R185: an operation of the block, or WIRE changing register 1 of a PHY (link up,
link down). -/
inductive PhyEvent where
  | block (op : PhyOp)
  | wire (pa : BitVec 5) (status : Half)
deriving DecidableEq, Repr

/-- The reference PHY of R185, for simulation only (log 21): a register holds the last value written to it by the block,
or by WIRE if it is register 1; 0 at first. -/
def referencePhy (events : List PhyEvent) (pa ra : BitVec 5) : Half :=
  events.foldl (fun v e =>
    match e with
    | .block (.write pa' ra' v') => if pa' = pa ∧ ra' = ra then v' else v
    | .block (.read _ _ _) => v
    | .wire pa' v' => if pa' = pa ∧ ra = 1#5 then v' else v) 0#16

end Sys2Proof.Machine
end

