-- ==== Sys2Proof/Machine/Mmio.lean ====
section
/-! DEFINITION. The meanings of the host's register accesses, spec 40_mmio R140 to R161, one per register.  No access
raises an error: a write that is not accepted changes nothing (R162). -/

namespace Sys2Proof.Machine

/-- A write to `CTRL` (R140): `SRST` resets and the rest of the write is ignored; otherwise `EN` and `LOOP` are
stored and `EN = 0` clears both active flags. -/
def writeCtrl (d : Word) (s : State) : State :=
  if d.getLsbD 31 then resetBlock s
  else
    { s with
      ctrlEn := d.getLsbD 0
      ctrlLoop := d.getLsbD 1
      txActive := s.txActive && d.getLsbD 0
      rxActive := s.rxActive && d.getLsbD 0 }

/-- `CTRL` (R140). -/
def execCtrl (a : RegAccess) (s : State) : Result :=
  accessGated (ctrlWord s) true (fun d => writeCtrl d s) a s

/-- `EIR`: a read changes nothing (R142), a write clears the events it names (R143). -/
def execEir (a : RegAccess) (s : State) : Result :=
  accessGated (eirWord s) true (fun d => { s with eir := s.eir &&& ~~~(d.extractLsb' 0 5) }) a s

/-- `EIMR` (R144). -/
def execEimr (a : RegAccess) (s : State) : Result :=
  accessGated (eimrWord s) true (fun d => { s with eimr := d.extractLsb' 0 5 }) a s

/-- `STATUS` (R141). -/
def execStatus (a : RegAccess) (s : State) : Result := accessReadOnly (statusWord s) a s

/-- A ring base drops the low three bits (R26, R115). -/
def ringBase (d : Word) : Word := d &&& 0xFFFFFFF8#32

/-- `TDSR` (R145): accepted while the Tx ring is inactive, and then loads `TDCUR` too. -/
def execTdsr (a : RegAccess) (s : State) : Result :=
  accessGated s.tdsr (!s.txActive) (fun d => { s with tdsr := ringBase d, tdcur := ringBase d }) a s

/-- `RDSR` (R146): accepted while the Rx ring is inactive, and then loads `RDCUR` too. -/
def execRdsr (a : RegAccess) (s : State) : Result :=
  accessGated s.rdsr (!s.rxActive) (fun d => { s with rdsr := ringBase d, rdcur := ringBase d }) a s

/-- `TDAR` (R148): activates the Tx ring if the MAC is enabled and not halted; the data is ignored; reads 0. -/
def execTdar (a : RegAccess) (s : State) : Result :=
  accessGated 0#32 (s.ctrlEn && !s.halted) (fun _ => { s with txActive := true }) a s

/-- `RDAR` (R149): activates the Rx ring, as `TDAR` the Tx ring. -/
def execRdar (a : RegAccess) (s : State) : Result :=
  accessGated 0#32 (s.ctrlEn && !s.halted) (fun _ => { s with rxActive := true }) a s

/-- `RXMAX` (R150). -/
def execRxmax (a : RegAccess) (s : State) : Result :=
  accessGated (s.rxmax.setWidth 32) true (fun d => { s with rxmax := lo16 d }) a s

/-- `MACLO` (R151), PP-locked. -/
def execMaclo (a : RegAccess) (s : State) : Result :=
  accessGated s.maclo (!s.ppBusy) (fun d => { s with maclo := d }) a s

/-- `MACHI` (R151), PP-locked. -/
def execMachi (a : RegAccess) (s : State) : Result :=
  accessGated (s.machi.setWidth 32) (!s.ppBusy) (fun d => { s with machi := lo16 d }) a s

/-- `TDCUR` (R147). -/
def execTdcur (a : RegAccess) (s : State) : Result := accessReadOnly s.tdcur a s

/-- `RDCUR` (R147). -/
def execRdcur (a : RegAccess) (s : State) : Result := accessReadOnly s.rdcur a s

/-- `MMFR` (R152, R180, R183, R184): stored while no operation is pending, and starts one if the word says so. -/
def execMmfr (a : RegAccess) (s : State) : Result :=
  accessGated s.mmfr (!s.mdioBusy) (fun d => { s with mmfr := d, mdioBusy := mmfrStarts d }) a s

/-- `CNT_TX_SENT` (R153). -/
def execCntTxSent (a : RegAccess) (s : State) : Result := accessReadOnly s.counters.txSent a s

/-- `CNT_TX_ERR` (R153). -/
def execCntTxErr (a : RegAccess) (s : State) : Result := accessReadOnly s.counters.txErr a s

/-- `CNT_RX_STORED` (R153). -/
def execCntRxStored (a : RegAccess) (s : State) : Result := accessReadOnly s.counters.rxStored a s

/-- `CNT_RX_NODESC` (R153). -/
def execCntRxNodesc (a : RegAccess) (s : State) : Result := accessReadOnly s.counters.rxNodesc a s

/-- `CNT_RX_OVERSIZE` (R153). -/
def execCntRxOversize (a : RegAccess) (s : State) : Result := accessReadOnly s.counters.rxOversize a s

/-- `CNT_L2_ARP_ACC` (R153). -/
def execCntL2ArpAcc (a : RegAccess) (s : State) : Result := accessReadOnly s.counters.l2ArpAcc a s

/-- `CNT_L2_IP4_ACC` (R153). -/
def execCntL2Ip4Acc (a : RegAccess) (s : State) : Result := accessReadOnly s.counters.l2Ip4Acc a s

/-- `CNT_L2_ARP_DROP` (R153). -/
def execCntL2ArpDrop (a : RegAccess) (s : State) : Result := accessReadOnly s.counters.l2ArpDrop a s

/-- `CNT_L2_IP4_DROP` (R153). -/
def execCntL2Ip4Drop (a : RegAccess) (s : State) : Result := accessReadOnly s.counters.l2Ip4Drop a s

/-- `CNT_L2_OTHER_DROP` (R153). -/
def execCntL2OtherDrop (a : RegAccess) (s : State) : Result := accessReadOnly s.counters.l2OtherDrop a s

/-- `CNT_ARP_BAD` (R153). -/
def execCntArpBad (a : RegAccess) (s : State) : Result := accessReadOnly s.counters.arpBad a s

/-- `CNT_IP4_BADHDR` (R153). -/
def execCntIp4Badhdr (a : RegAccess) (s : State) : Result := accessReadOnly s.counters.ip4Badhdr a s

/-- `CNT_IP4_BADCSUM` (R153). -/
def execCntIp4Badcsum (a : RegAccess) (s : State) : Result := accessReadOnly s.counters.ip4Badcsum a s

/-- `CNT_IP4_BADDST` (R153). -/
def execCntIp4Baddst (a : RegAccess) (s : State) : Result := accessReadOnly s.counters.ip4Baddst a s

/-- `CNT_IP4_BADPROTO` (R153). -/
def execCntIp4Badproto (a : RegAccess) (s : State) : Result := accessReadOnly s.counters.ip4Badproto a s

/-- `CNT_ICMP_DROP` (R153). -/
def execCntIcmpDrop (a : RegAccess) (s : State) : Result := accessReadOnly s.counters.icmpDrop a s

/-- `CNT_UDP_BADLEN` (R153). -/
def execCntUdpBadlen (a : RegAccess) (s : State) : Result := accessReadOnly s.counters.udpBadlen a s

/-- `CNT_UDP_NOPORT` (R153). -/
def execCntUdpNoport (a : RegAccess) (s : State) : Result := accessReadOnly s.counters.udpNoport a s

/-- `PP_CMD` (R154, R220): an accepted write stores the word, legal or not, and starts the command. -/
def execPpCmd (a : RegAccess) (s : State) : Result :=
  accessGated s.ppCmd (!s.ppBusy) (fun d => { s with ppCmd := d, ppBusy := true }) a s

/-- `PP_STATUS` (R155). -/
def execPpStatus (a : RegAccess) (s : State) : Result := accessReadOnly (ppStatusWord s) a s

/-- `P0` (R156), PP-locked. -/
def execP0 (a : RegAccess) (s : State) : Result :=
  accessGated s.p.p0 (!s.ppBusy) (fun d => { s with p := { s.p with p0 := d } }) a s

/-- `P1` (R156), PP-locked. -/
def execP1 (a : RegAccess) (s : State) : Result :=
  accessGated s.p.p1 (!s.ppBusy) (fun d => { s with p := { s.p with p1 := d } }) a s

/-- `P2` (R156), PP-locked. -/
def execP2 (a : RegAccess) (s : State) : Result :=
  accessGated s.p.p2 (!s.ppBusy) (fun d => { s with p := { s.p with p2 := d } }) a s

/-- `P3` (R156), PP-locked. -/
def execP3 (a : RegAccess) (s : State) : Result :=
  accessGated s.p.p3 (!s.ppBusy) (fun d => { s with p := { s.p with p3 := d } }) a s

/-- `P4` (R156), PP-locked. -/
def execP4 (a : RegAccess) (s : State) : Result :=
  accessGated s.p.p4 (!s.ppBusy) (fun d => { s with p := { s.p with p4 := d } }) a s

/-- `P5` (R156), PP-locked. -/
def execP5 (a : RegAccess) (s : State) : Result :=
  accessGated s.p.p5 (!s.ppBusy) (fun d => { s with p := { s.p with p5 := d } }) a s

/-- `P6` (R156), PP-locked. -/
def execP6 (a : RegAccess) (s : State) : Result :=
  accessGated s.p.p6 (!s.ppBusy) (fun d => { s with p := { s.p with p6 := d } }) a s

/-- `P7` (R156), PP-locked. -/
def execP7 (a : RegAccess) (s : State) : Result :=
  accessGated s.p.p7 (!s.ppBusy) (fun d => { s with p := { s.p with p7 := d } }) a s

/-- `IP4_ADDR` (R157), PP-locked. -/
def execIp4Addr (a : RegAccess) (s : State) : Result :=
  accessGated s.ip4Addr (!s.ppBusy) (fun d => { s with ip4Addr := d }) a s

/-- `IP4_MASK` (R157), PP-locked. -/
def execIp4Mask (a : RegAccess) (s : State) : Result :=
  accessGated s.ip4Mask (!s.ppBusy) (fun d => { s with ip4Mask := d }) a s

/-- `IP4_GW` (R157), PP-locked. -/
def execIp4Gw (a : RegAccess) (s : State) : Result :=
  accessGated s.ip4Gw (!s.ppBusy) (fun d => { s with ip4Gw := d }) a s

/-- `IP4_TTL` (R158), PP-locked. -/
def execIp4Ttl (a : RegAccess) (s : State) : Result :=
  accessGated (s.ip4Ttl.setWidth 32) (!s.ppBusy) (fun d => { s with ip4Ttl := lo8 d }) a s

/-- `ARP_SEL` (R159), PP-locked. -/
def execArpSel (a : RegAccess) (s : State) : Result :=
  accessGated (s.arpSel.setWidth 32) (!s.ppBusy) (fun d => { s with arpSel := d.extractLsb' 0 4 }) a s

/-- `ARP_IP` (R159). -/
def execArpIp (a : RegAccess) (s : State) : Result := accessReadOnly (selectedEntry s).ip a s

/-- `ARP_MACLO` (R159). -/
def execArpMaclo (a : RegAccess) (s : State) : Result := accessReadOnly (macLo (selectedEntry s).mac) a s

/-- `ARP_MACHI` (R159). -/
def execArpMachi (a : RegAccess) (s : State) : Result := accessReadOnly (arpMachiWord (selectedEntry s)) a s

/-- `ARP_TS` (R159): the read does not refresh the timestamp. -/
def execArpTs (a : RegAccess) (s : State) : Result := accessReadOnly (selectedEntry s).ts a s

/-- `UDP_PORT0` (R160). -/
def execUdpPort0 (a : RegAccess) (s : State) : Result := accessReadOnly (udpPortWord s 0) a s

/-- `UDP_PORT1` (R160). -/
def execUdpPort1 (a : RegAccess) (s : State) : Result := accessReadOnly (udpPortWord s 1) a s

/-- `UDP_PORT2` (R160). -/
def execUdpPort2 (a : RegAccess) (s : State) : Result := accessReadOnly (udpPortWord s 2) a s

/-- `UDP_PORT3` (R160). -/
def execUdpPort3 (a : RegAccess) (s : State) : Result := accessReadOnly (udpPortWord s 3) a s

/-- `UDP_PORT4` (R160). -/
def execUdpPort4 (a : RegAccess) (s : State) : Result := accessReadOnly (udpPortWord s 4) a s

/-- `UDP_PORT5` (R160). -/
def execUdpPort5 (a : RegAccess) (s : State) : Result := accessReadOnly (udpPortWord s 5) a s

/-- `UDP_PORT6` (R160). -/
def execUdpPort6 (a : RegAccess) (s : State) : Result := accessReadOnly (udpPortWord s 6) a s

/-- `UDP_PORT7` (R160). -/
def execUdpPort7 (a : RegAccess) (s : State) : Result := accessReadOnly (udpPortWord s 7) a s

/-- A reserved offset (R21, R161): reads 0, a write is ignored. -/
def execReserved (_offset : BitVec 12) (a : RegAccess) (s : State) : Result := accessReadOnly 0#32 a s

end Sys2Proof.Machine
end

