-- ==== Sys2Proof/Machine/PpBuild.lean ====
section
/-! DEFINITION. The packet processor's checksum and header-construction commands, spec 44_pp_build R224 to R232.  Each command is
given by its operand check (R222 step 1), its footprint (step 2) and its effect (steps 3 and 4). -/

namespace Sys2Proof.Machine

/-- The operand check that fails with `ERR_BAD_ARG`. -/
def badArgIf (bad : Bool) : Option PpResult := if bad then some .errBadArg else none

/-- `execute` of `NOP` (R224). -/
def execNop (s : State) : Result := ppComplete none 0#32 0 (.done .ok s) s

/-! ## `CKSUM` (R225) -/

def cksumCheck (s : State) : Option PpResult :=
  badArgIf (s.p.p1.toNat > 0xFFFF || !fits16 s.p.p2)

def cksumLen (s : State) : Nat := s.p.p1.toNat

/-- `P6` the folded sum, `P7` its complement (R225). -/
def cksumEffect (s : State) : PpEnd :=
  let t := ocsum (loadBytes s.mem s.p.p0 (cksumLen s)) (lo16 s.p.p2)
  .done .ok { s with p := { s.p with p6 := t.setWidth 32, p7 := (~~~t).setWidth 32 } }

/-- `CKSUM` (R225). -/
def execCksum (s : State) : Result :=
  ppComplete (cksumCheck s) s.p.p0 (cksumLen s) (cksumEffect s) s

/-! ## `ETH_HDR` (R226) -/

def ethHdrCheck (s : State) : Option PpResult := badArgIf (!fits16 s.p.p2 || !fits16 s.p.p3)

/-- The 14 bytes of an Ethernet II header at `F` (R116, R226). -/
def putEthHdr (f : Word) (dst src : Mac) (etherType : Half) (m : Memory) : Memory :=
  putBe16 (f + 12#32) etherType (putMac (f + 6#32) src (putMac f dst m))

def ethHdrEffect (s : State) : PpEnd :=
  .done .ok
    { s with
      mem := putEthHdr (frameBase s) (macOf (lo16 s.p.p2) s.p.p1) (station s) (lo16 s.p.p3) s.mem
      p := { s.p with p7 := 14#32 } }

/-- `ETH_HDR` (R226). -/
def execEthHdr (s : State) : Result :=
  ppComplete (ethHdrCheck s) (frameBase s) 14 (ethHdrEffect s) s

/-! ## `ARP_REQ`, `ARP_REPLY` (R227, R228) -/

/-- A complete ARP frame of 42 bytes at `F` from the station (R116): Ethernet destination, operation, target
hardware address, target protocol address. -/
def putArpFrame (s : State) (dst : Mac) (oper : Half) (tha : Mac) (tpa : Word) (m : Memory) : Memory :=
  let f := frameBase s
  let m := putEthHdr f dst (station s) 0x0806#16 m
  let m := putBe16 (f + 14#32) 1#16 m
  let m := putBe16 (f + 16#32) 0x0800#16 m
  let m := put8 (f + 18#32) 6#8 m
  let m := put8 (f + 19#32) 4#8 m
  let m := putBe16 (f + 20#32) oper m
  let m := putMac (f + 22#32) (station s) m
  let m := putBe32 (f + 28#32) s.ip4Addr m
  let m := putMac (f + 32#32) tha m
  putBe32 (f + 38#32) tpa m

def arpReqEffect (s : State) : PpEnd :=
  .done .ok
    { s with
      mem := putArpFrame s broadcastMac 1#16 0#48 s.p.p1 s.mem
      p := { s.p with p7 := 42#32 } }

/-- `ARP_REQ` (R227): no operand is checked. -/
def execArpReq (s : State) : Result := ppComplete none (frameBase s) 42 (arpReqEffect s) s

def arpReplyCheck (s : State) : Option PpResult := badArgIf (!fits16 s.p.p3)

def arpReplyEffect (s : State) : PpEnd :=
  let t := macOf (lo16 s.p.p3) s.p.p2
  .done .ok
    { s with
      mem := putArpFrame s t 2#16 t s.p.p1 s.mem
      p := { s.p with p7 := 42#32 } }

/-- `ARP_REPLY` (R228). -/
def execArpReply (s : State) : Result :=
  ppComplete (arpReplyCheck s) (frameBase s) 42 (arpReplyEffect s) s

/-! ## `IP4_HDR` (R229) -/

def ip4HdrCheck (s : State) : Option PpResult :=
  badArgIf (!fits8 s.p.p2 || decide (s.p.p3.toNat > 1480))

/-- The IPv4 header of R229 at `F + 14` with its checksum field zero. -/
def putIp4Hdr (s : State) (m : Memory) : Memory :=
  let f := frameBase s
  let m := put8 (f + 14#32) 0x45#8 m
  let m := put8 (f + 15#32) 0x00#8 m
  let m := putBe16 (f + 16#32) (BitVec.ofNat 16 (20 + s.p.p3.toNat)) m
  let m := putBe16 (f + 18#32) 0x0000#16 m
  let m := putBe16 (f + 20#32) 0x0000#16 m
  let m := put8 (f + 22#32) s.ip4Ttl m
  let m := put8 (f + 23#32) (lo8 s.p.p2) m
  let m := putBe16 (f + 24#32) 0x0000#16 m
  let m := putBe32 (f + 26#32) s.ip4Addr m
  putBe32 (f + 30#32) s.p.p1 m

/-- The checksum of the `n` bytes at `a`, written big-endian at `field`: how every checksum field is filled, the field
being zero beforehand (R229, R230, R231). -/
def putCksum (field a : Word) (n : Nat) (m : Memory) : Memory :=
  putBe16 field (cksumOf (loadBytes m a n) 0#16) m

def ip4HdrEffect (s : State) : PpEnd :=
  .done .ok
    { s with
      mem := putCksum (frameBase s + 24#32) (frameBase s + 14#32) 20 (putIp4Hdr s s.mem)
      p := { s.p with p6 := 20#32 + s.p.p3, p7 := 34#32 + s.p.p3 } }

/-- `IP4_HDR` (R229). -/
def execIp4Hdr (s : State) : Result :=
  ppComplete (ip4HdrCheck s) (frameBase s + 14#32) 20 (ip4HdrEffect s) s

/-! ## `ICMP_ECHO_REQ` (R230) -/

def icmpEchoReqCheck (s : State) : Option PpResult :=
  badArgIf (!fits16 s.p.p1 || !fits16 s.p.p2 || decide (s.p.p3.toNat > 1472))

/-- Header and data: `8 + n` bytes (R230). -/
def icmpEchoReqLen (s : State) : Nat := 8 + s.p.p3.toNat

def icmpEchoReqEffect (s : State) : PpEnd :=
  let f := frameBase s
  let m := put8 (f + 34#32) 8#8 s.mem
  let m := put8 (f + 35#32) 0#8 m
  let m := putBe16 (f + 36#32) 0#16 m
  let m := putBe16 (f + 38#32) (lo16 s.p.p1) m
  let m := putBe16 (f + 40#32) (lo16 s.p.p2) m
  .done .ok
    { s with
      mem := putCksum (f + 36#32) (f + 34#32) (icmpEchoReqLen s) m
      p := { s.p with p7 := 8#32 + s.p.p3 } }

/-- `ICMP_ECHO_REQ` (R230). -/
def execIcmpEchoReq (s : State) : Result :=
  ppComplete (icmpEchoReqCheck s) (frameBase s + 34#32) (icmpEchoReqLen s) (icmpEchoReqEffect s) s

/-! ## `ICMP_ECHO_REPLY` (R231) -/

def icmpEchoReplyCheck (s : State) : Option PpResult :=
  badArgIf (decide (s.p.p1.toNat < 42) || decide (s.p.p1.toNat > 1514))

def icmpEchoReplyLen (s : State) : Nat := s.p.p1.toNat

/-- The total length field of the received frame. -/
def frameTotlen (s : State) : Nat := (loadBe16 s.mem (frameBase s + 16#32)).toNat

/-- The content checks of R231: an IPv4 echo request whose total length fits the frame. -/
def isEchoRequest (s : State) : Bool :=
  let f := frameBase s
  loadBe16 s.mem (f + 12#32) == 0x0800#16 && load8 s.mem (f + 14#32) == 0x45#8 &&
    load8 s.mem (f + 23#32) == 1#8 && 28 ≤ frameTotlen s &&
    frameTotlen s ≤ icmpEchoReplyLen s - 14 && load8 s.mem (f + 34#32) == 8#8

/-- The frame turned into its reply (R231). -/
def putEchoReply (s : State) : Memory :=
  let f := frameBase s
  let peerMac := loadMac s.mem (f + 6#32)
  let peerIp := loadBe32 s.mem (f + 26#32)
  let m := putMac f peerMac s.mem
  let m := putMac (f + 6#32) (station s) m
  let m := put8 (f + 22#32) s.ip4Ttl m
  let m := putBe32 (f + 26#32) s.ip4Addr m
  let m := putBe32 (f + 30#32) peerIp m
  let m := putBe16 (f + 24#32) 0#16 m
  let m := putCksum (f + 24#32) (f + 14#32) 20 m
  let m := put8 (f + 34#32) 0#8 m
  let m := putBe16 (f + 36#32) 0#16 m
  putCksum (f + 36#32) (f + 34#32) (frameTotlen s - 20) m

def icmpEchoReplyEffect (s : State) : PpEnd :=
  if isEchoRequest s then
    .done .ok
      { s with
        mem := putEchoReply s
        p := { s.p with p7 := ofLen (14 + frameTotlen s) } }
  else .raised .errBadArg

/-- `ICMP_ECHO_REPLY` (R231). -/
def execIcmpEchoReply (s : State) : Result :=
  ppComplete (icmpEchoReplyCheck s) (frameBase s) (icmpEchoReplyLen s) (icmpEchoReplyEffect s) s

/-! ## `UDP_HDR` (R232) -/

/-- The port bound to slot `P1`; 0 if the slot is out of range. -/
def slotPort (s : State) (k : Nat) : Half := if h : k < 8 then s.udpPort[k] else 0#16

def udpHdrCheck (s : State) : Option PpResult :=
  if s.p.p1.toNat ≥ 8 || !fits16 s.p.p2 || decide (s.p.p3.toNat > 1472) then some .errBadArg
  else if slotPort s s.p.p1.toNat = 0#16 then some .errUnbound
  else none

/-- The payload is part of the footprint only if it is summed (R232). -/
def udpHdrLen (csum : Bool) (s : State) : Nat := 8 + if csum then s.p.p3.toNat else 0

/-- The pseudo-header's 12 bytes (R116). -/
def pseudoHeader (src dst : Word) (udpLen : Half) : List Byte :=
  beBytes4 src ++ beBytes4 dst ++ [0#8, 17#8] ++ beBytes2 udpLen

/-- The UDP length field, `8 + n`. -/
def udpLenField (s : State) : Half := BitVec.ofNat 16 (8 + s.p.p3.toNat)

/-- The four fields of the UDP header, checksum zero (R232). -/
def putUdpHdr (s : State) (m : Memory) : Memory :=
  let f := frameBase s
  let m := putBe16 (f + 34#32) (slotPort s s.p.p1.toNat) m
  let m := putBe16 (f + 36#32) (lo16 s.p.p2) m
  let m := putBe16 (f + 38#32) (udpLenField s) m
  putBe16 (f + 40#32) 0#16 m

/-- The computed UDP checksum: a zero is sent as 0xFFFF (R232). -/
def udpCksum (s : State) (m : Memory) : Half :=
  let c := cksumOf
    (pseudoHeader s.ip4Addr s.p.p4 (udpLenField s) ++
      loadBytes m (frameBase s + 34#32) (8 + s.p.p3.toNat)) 0#16
  if c = 0#16 then 0xFFFF#16 else c

def udpHdrEffect (csum : Bool) (s : State) : PpEnd :=
  let m := putUdpHdr s s.mem
  .done .ok
    { s with
      mem := if csum then putBe16 (frameBase s + 40#32) (udpCksum s m) m else m
      p := { s.p with p7 := 8#32 + s.p.p3 } }

/-- `UDP_HDR` (R232). -/
def execUdpHdr (csum : Bool) (s : State) : Result :=
  ppComplete (udpHdrCheck s) (frameBase s + 34#32) (udpHdrLen csum s) (udpHdrEffect csum s) s

/-! ## Illegal words (R120) -/

/-- An illegal command completes with `ERR_BAD_CMD` and has no other effect (R120, R221). -/
def execPpIllegal (_word : Word) (s : State) : Result := ppComplete (some .errBadCmd) 0#32 0 (.done .ok s) s

end Sys2Proof.Machine
end

