-- ==== Sys2Proof/Machine/PpTables.lean ====
section
/-! DEFINITION. The ARP cache, the next-hop choice and the UDP port table: spec 46_pp_tables R290 to R301. -/

namespace Sys2Proof.Machine

/-! ## The ARP cache -/

/-- `find(ip)` (R291): an entry that is not `EMPTY` and holds the address. -/
def arpFind (cache : Vector ArpEntry 16) (ip : Word) : Option (Fin 16) :=
  (List.finRange 16).find? fun i => cache[i].state != .empty && cache[i].ip == ip

/-- The lowest-index `EMPTY` entry (R292). -/
def arpFirstEmpty (cache : Vector ArpEntry 16) : Option (Fin 16) :=
  (List.finRange 16).find? fun i => cache[i].state == .empty

/-- The entry with the smallest timestamp, unsigned, the lowest index on a tie (R292). -/
def arpOldest (cache : Vector ArpEntry 16) : Fin 16 :=
  (List.finRange 16).foldl (fun best i => if cache[i].ts.toNat < cache[best].ts.toNat then i else best) 0

/-- What `alloc()` answers (R292): the slot, whether it evicts, and the evicted address (0 if none). -/
structure ArpSlot where
  slot : Fin 16
  evicted : Bool
  evip : Word
deriving DecidableEq, Repr

/-- `alloc()` (R292). -/
def arpAlloc (cache : Vector ArpEntry 16) : ArpSlot :=
  match arpFirstEmpty cache with
  | some i => ⟨i, false, 0#32⟩
  | none => ⟨arpOldest cache, true, cache[arpOldest cache].ip⟩

/-- The flags of an insertion: bit 1 INSERTED, bit 2 EVICTED (R293, R295). -/
def insertFlags (evicted : Bool) : Word := if evicted then 6#32 else 2#32

/-- A slot number as an output. -/
def slotWord (i : Fin 16) : Word := ofLen i.val

/-- What `learn` answers (R295): flags, slot, evicted address, and the cache after it. -/
structure Learned where
  flags : Word
  slot : Word
  evip : Word
  cache : Vector ArpEntry 16
deriving DecidableEq, Repr

/-- `learn(ip, mac, now, insert)` (R295). -/
def arpLearn (cache : Vector ArpEntry 16) (ip : Word) (mac : Mac) (now : Word) (insert : Bool) : Learned :=
  match arpFind cache ip with
  | some i => ⟨1#32, slotWord i, 0#32, cache.set i ⟨.resolved, ip, mac, now⟩⟩
  | none =>
    if insert then
      let a := arpAlloc cache
      ⟨insertFlags a.evicted, slotWord a.slot, a.evip, cache.set a.slot ⟨.resolved, ip, mac, now⟩⟩
    else ⟨0#32, 0#32, 0#32, cache⟩

/-- A hit on a `RESOLVED` entry: the timestamp is refreshed and the MAC address returned (R293). -/
def arpHitEffect (i : Fin 16) (s : State) : PpEnd :=
  .done .arpHit
    { s with
      arp := s.arp.set i { s.arp[i] with ts := s.p.p1 }
      p :=
        { s.p with
          p1 := macLo s.arp[i].mac
          p2 := macHi s.arp[i].mac
          p5 := 0#32
          p6 := slotWord i
          p7 := 0#32 } }

/-- The entry exists and is `PENDING`: its timestamp is not refreshed (R293). -/
def arpPendingEffect (i : Fin 16) (s : State) : PpEnd :=
  .done .arpPending { s with p := { s.p with p5 := 0#32, p6 := slotWord i, p7 := 0#32 } }

/-- A miss creates a `PENDING` entry (R293). -/
def arpMissEffect (s : State) : PpEnd :=
  let a := arpAlloc s.arp
  .done .arpNew
    { s with
      arp := s.arp.set a.slot ⟨.pending, s.p.p0, 0#48, s.p.p1⟩
      p := { s.p with p5 := insertFlags a.evicted, p6 := slotWord a.slot, p7 := a.evip } }

def arpResolveEffect (s : State) : PpEnd :=
  match arpFind s.arp s.p.p0 with
  | some i => if s.arp[i].state = .resolved then arpHitEffect i s else arpPendingEffect i s
  | none => arpMissEffect s

/-- `ARP_RESOLVE` (R293): no operand is checked, no memory touched. -/
def execArpResolve (s : State) : Result := ppComplete none 0#32 0 (arpResolveEffect s) s

def arpUpdateCheck (s : State) : Option PpResult := if fits16 s.p.p2 then none else some .errBadArg

def arpUpdateEffect (s : State) : PpEnd :=
  let l := arpLearn s.arp s.p.p0 (macOf (lo16 s.p.p2) s.p.p1) s.p.p3 true
  .done .ok { s with arp := l.cache, p := { s.p with p5 := l.flags, p6 := l.slot, p7 := l.evip } }

/-- `ARP_UPDATE` (R294). -/
def execArpUpdate (s : State) : Result := ppComplete (arpUpdateCheck s) 0#32 0 (arpUpdateEffect s) s

/-! ## Next hop -/

/-- The destination is on the local subnet (R297). -/
def onSubnet (s : State) (dst : Word) : Bool := dst &&& s.ip4Mask == s.ip4Addr &&& s.ip4Mask

def ip4NexthopEffect (s : State) : PpEnd :=
  if onSubnet s s.p.p0 then
    .done .ok { s with p := { s.p with p6 := 0#32, p7 := s.p.p0 } }
  else if s.ip4Gw ≠ 0#32 then
    .done .ok { s with p := { s.p with p6 := 1#32, p7 := s.ip4Gw } }
  else .raised .errNoRoute

/-- `IP4_NEXTHOP` (R297). -/
def execIp4Nexthop (s : State) : Result := ppComplete none 0#32 0 (ip4NexthopEffect s) s

/-! ## The UDP port table -/

/-- Some slot other than `k` holds the port (R298). -/
def portTaken (ports : Vector Half 8) (k : Nat) (port : Half) : Bool :=
  (List.finRange 8).any fun j => j.val != k && ports[j] == port

def udpBindCheck (s : State) : Option PpResult :=
  if s.p.p0.toNat ≥ 8 || s.p.p1 == 0#32 || !fits16 s.p.p1 then some .errBadArg
  else if portTaken s.udpPort s.p.p0.toNat (lo16 s.p.p1) then some .errPortInUse
  else none

/-- Slot `k` of the table set to a port; an index out of range changes nothing. -/
def setPort (k : Nat) (port : Half) (s : State) : State :=
  if h : k < 8 then { s with udpPort := s.udpPort.set k port h } else s

/-- `UDP_BIND` (R298). -/
def execUdpBind (s : State) : Result :=
  ppComplete (udpBindCheck s) 0#32 0 (.done .ok (setPort s.p.p0.toNat (lo16 s.p.p1) s)) s

def udpUnbindCheck (s : State) : Option PpResult := if s.p.p0.toNat ≥ 8 then some .errBadArg else none

/-- `UDP_UNBIND` (R299). -/
def execUdpUnbind (s : State) : Result :=
  ppComplete (udpUnbindCheck s) 0#32 0 (.done .ok (setPort s.p.p0.toNat 0#16 s)) s

/-- `port_match(p)` (R300): the slot bound to `p`; 0 never matches. -/
def portMatch (ports : Vector Half 8) (port : Half) : Option (Fin 8) :=
  if port = 0#16 then none else (List.finRange 8).find? fun k => ports[k] == port

end Sys2Proof.Machine
end

