-- ==== Sys2Proof/Machine/PpClassify.lean ====
section
/-! DEFINITION. `RX_CLASSIFY`, spec 45_pp_classify R260 to R265: Layer-2 dispatch, ARP learning, IPv4 validation and
ICMP/UDP demultiplexing of one received frame.  The command reads the frame and never writes memory. -/

namespace Sys2Proof.Machine

/-- A drop: one counter and a result, no output register (R266). -/
def dropWith (n : CounterName) (r : PpResult) (s : State) : PpEnd := .done r (count n s)

/-- The byte at offset `k` of the frame. -/
def frame8 (s : State) (k : Word) : Byte := load8 s.mem (frameBase s + k)

/-- The `be16` field at offset `k` of the frame. -/
def frame16 (s : State) (k : Word) : Half := loadBe16 s.mem (frameBase s + k)

/-- The `be32` field at offset `k` of the frame. -/
def frame32 (s : State) (k : Word) : Word := loadBe32 s.mem (frameBase s + k)

/-- The MAC field at offset `k` of the frame. -/
def frameMac (s : State) (k : Word) : Mac := loadMac s.mem (frameBase s + k)

/-! ## ARP stage (R262) -/

/-- The field values an ARP packet must have (R262). -/
def arpFieldsOk (s : State) : Bool :=
  frame16 s 14#32 == 1#16 && frame16 s 16#32 == 0x0800#16 && frame8 s 18#32 == 6#8 &&
    frame8 s 19#32 == 4#8 && (frame16 s 20#32 == 1#16 || frame16 s 20#32 == 2#16)

/-- Which of the three ARP results (R262). -/
def arpResultOf (s : State) : PpResult :=
  if frame16 s 20#32 = 2#16 then .rxArpReply
  else if frame32 s 38#32 = s.ip4Addr then .rxArpRequest
  else .rxArpOther

/-- What the ARP stage learns from the sender fields (R262, R295): insertion only for the local address. -/
def arpStageLearned (s : State) (now : Word) : Learned :=
  arpLearn s.arp (frame32 s 28#32) (frameMac s 22#32) now (frame32 s 38#32 == s.ip4Addr)

def arpStage (now : Word) (s : State) : PpEnd :=
  if !arpFieldsOk s then dropWith .arpBad .dropArpBad s
  else
    let l := arpStageLearned s now
    .done (arpResultOf s)
      { s with
        arp := l.cache
        p :=
          { s.p with
            p1 := frame32 s 28#32
            p2 := macLo (frameMac s 22#32)
            p3 := macHi (frameMac s 22#32)
            p4 := frame32 s 38#32
            p5 := l.flags
            p6 := l.slot
            p7 := l.evip } }

/-! ## ICMP stage (R264) -/

/-- An echo request or reply: code 0 and type 0 or 8 (R264). -/
def icmpIsEcho (s : State) : Bool :=
  frame8 s 35#32 == 0#8 && (frame8 s 34#32 == 0#8 || frame8 s 34#32 == 8#8)

def icmpStage (src dst : Word) (l4len : Nat) (s : State) : PpEnd :=
  if l4len < 8 then dropWith .icmpDrop .dropIcmp s
  else if !icmpIsEcho s then dropWith .icmpDrop .dropIcmp s
  else
    .done (if frame8 s 34#32 = 8#8 then .rxIcmpEchoRequest else .rxIcmpEchoReply)
      { s with
        p :=
          { s.p with
            p1 := src
            p2 := (frame16 s 38#32).setWidth 32
            p3 := (frame16 s 40#32).setWidth 32
            p4 := ofLen l4len
            p5 := dst } }

/-! ## UDP stage (R265) -/

def udpStage (src dst : Word) (l4len : Nat) (s : State) : PpEnd :=
  let ulen := (frame16 s 38#32).toNat
  let dport := frame16 s 36#32
  if l4len < 8 then dropWith .udpBadlen .dropUdpLen s
  else if ulen < 8 || ulen > l4len then dropWith .udpBadlen .dropUdpLen s
  else
    match portMatch s.udpPort dport with
    | none => dropWith .udpNoport .dropUdpPort s
    | some k =>
      .done .rxUdp
        { s with
          p :=
            { s.p with
              p1 := src
              p2 := (frame16 s 34#32).setWidth 32
              p3 := ofLen k.val
              p4 := frameBase s + 42#32
              p5 := ofLen (ulen - 8)
              p6 := dst
              p7 := dport.setWidth 32 } }

/-! ## IPv4 stage (R263) -/

/-- The subnet broadcast address (R263). -/
def subnetBroadcast (s : State) : Word := (s.ip4Addr &&& s.ip4Mask) ||| ~~~s.ip4Mask

/-- The destination is the local address or the subnet broadcast address (R263). -/
def ip4ForUs (s : State) (dst : Word) : Bool := dst == s.ip4Addr || dst == subnetBroadcast s

/-- The six tests of R263 in their order. -/
def ip4Stage (len : Nat) (s : State) : PpEnd :=
  let totlen := (frame16 s 16#32).toNat
  let src := frame32 s 26#32
  let dst := frame32 s 30#32
  if frame8 s 14#32 ≠ 0x45#8 then dropWith .ip4Badhdr .dropIp4Hdr s
  else if cksumOf (loadBytes s.mem (frameBase s + 14#32) 20) 0#16 ≠ 0x0000#16 then
    dropWith .ip4Badcsum .dropIp4Csum s
  else if totlen < 20 || totlen > len - 14 then dropWith .ip4Badhdr .dropIp4Hdr s
  else if frame16 s 20#32 &&& 0x3FFF#16 ≠ 0#16 then dropWith .ip4Badhdr .dropIp4Hdr s
  else if !ip4ForUs s dst then dropWith .ip4Baddst .dropIp4Dst s
  else if frame8 s 23#32 = 1#8 then icmpStage src dst (totlen - 20) s
  else if frame8 s 23#32 = 17#8 then udpStage src dst (totlen - 20) s
  else dropWith .ip4Badproto .dropIp4Proto s

/-! ## Layer-2 stage (R261) and the command (R260) -/

/-- The EtherType switch and its counters (R261). -/
def l2Stage (len : Nat) (now : Word) (s : State) : PpEnd :=
  if len < 14 then dropWith .l2OtherDrop .dropL2Runt s
  else if frame16 s 12#32 = 0x0806#16 then
    if len < 42 then dropWith .l2ArpDrop .dropL2ArpShort s
    else arpStage now (count .l2ArpAcc s)
  else if frame16 s 12#32 = 0x0800#16 then
    if len < 34 then dropWith .l2Ip4Drop .dropL2Ip4Short s
    else ip4Stage len (count .l2Ip4Acc s)
  else dropWith .l2OtherDrop .dropL2Type s

def rxClassifyCheck (s : State) : Option PpResult :=
  if s.p.p1.toNat > 0xFFFF then some .errBadArg else none

def rxClassifyLen (s : State) : Nat := s.p.p1.toNat

/-- `RX_CLASSIFY` (R260). -/
def execRxClassify (s : State) : Result :=
  ppComplete (rxClassifyCheck s) (frameBase s) (rxClassifyLen s) (l2Stage (rxClassifyLen s) s.p.p2 s) s

end Sys2Proof.Machine
end

