-- ==== Sys2Proof/Machine/Ring.lean ====
section
/-! DEFINITION. What both descriptor rings share: ring advance (spec 42_tx_dma R194, 43_rx_dma R210), the write-back words
(R191, R192, R208), and the receive operation, which a frame of WIRE (R205) and the loopback path (R196) go through. -/

namespace Sys2Proof.Machine

/-- `next(d, w0)` (R194, R210): the ring base after a descriptor with `WRAP`, else 8 further, modulo 2^32. -/
def nextDesc (base d : Word) (wrap : Bool) : Word := if wrap then base else d + 8#32

/-- The write-back of a completed Tx descriptor (R191): `OWN <- 0`, `ERR <- 0`, `DONE <- 1`, the rest kept. -/
def txDoneWord (w0 : Word) : Word := (w0 &&& 0x67FFFFFF#32) ||| 0x10000000#32

/-- The write-back of a Tx descriptor whose length is out of range (R192): `OWN <- 0`, `DONE <- 1`, `ERR <- 1`. -/
def txErrWord (w0 : Word) : Word := (w0 &&& 0x7FFFFFFF#32) ||| 0x18000000#32

/-- The write-back of a stored frame of `n` bytes (R208): `OWN <- 0`, `ERR <- 0`, `DONE <- 1`, `LEN <- n`. -/
def rxDoneWord (w0 : Word) (n : Nat) : Word := (w0 &&& 0x67FF0000#32) ||| 0x10000000#32 ||| ofLen n

/-- Frames of WIRE leave no trace in these states (R205). -/
def rxIgnores (s : State) : Bool := !s.ctrlEn || s.halted || s.ctrlLoop

/-- The tests of `receive(f)` that need no memory: the ring is inactive (R206), or the frame is longer than `RXMAX`
(R207).  `some` is the state after the drop; `none` means the descriptor at `RDCUR` decides. -/
def rxScreen (f : List Byte) (s : State) : Option State :=
  if !s.rxActive then some (count .rxNodesc s)
  else if f.length > s.rxmax.toNat then some (count .rxOversize s)
  else none

/-- Storing the frame through the ready descriptor at `RDCUR` (R208): `none` if the buffer is not admitted (R211). -/
def rxStore (f : List Byte) (c : DescCtl) (buf : Word) (s : State) : Option State :=
  if admitted s.platform buf f.length then
    some
      { setEventIf c.ioc .rxf (count .rxStored s) with
        mem := store32 (storeBytes s.mem buf f) s.rdcur (rxDoneWord (descWord true c) f.length)
        rdcur := nextDesc s.rdsr s.rdcur c.wrap }
  else none

/-- The descriptor at `RDCUR` is not ready (R209): the ring stops and the frame is dropped and counted. -/
def rxStop (s : State) : State := count .rxNodesc { s with rxActive := false }

/-- `loopback_receive(f)` (R196): what R206 to R209 do for `f`; `none` is a bus error of the receive side (R211). -/
def loopbackReceive (f : List Byte) (s : State) : Option State :=
  match rxScreen f s with
  | some t => some t
  | none =>
    if !admitted s.platform s.rdcur 4 then none
    else if !ownBit (load32 s.mem s.rdcur) then some (rxStop s)
    else if !admitted s.platform (s.rdcur + 4#32) 4 then none
    else rxStore f (descCtlOf (load32 s.mem s.rdcur)) (load32 s.mem (s.rdcur + 4#32)) s

end Sys2Proof.Machine
end

