-- ==== Sys2Proof/Machine/RxDma.lean ====
section
/-! DEFINITION. The meanings of the receive descriptors, spec 43_rx_dma R205 to R211.  The frame is the one WIRE offers
in this step, `wireIn`. -/

namespace Sys2Proof.Machine

/-- `RXD` (R208, R211), under the tests R205 to R207 that stand before the descriptor's. -/
def execRxd (c : DescCtl) (buf : Word) (s : State) : Result :=
  .next (if rxIgnores s then s
    else
      match rxScreen s.wireIn s with
      | some t => t
      | none =>
        match rxStore s.wireIn c buf s with
        | some t => t
        | none => busError s)

/-- `RXD_STOP` (R209), under the same tests. -/
def execRxdStop (_c : DescCtl) (s : State) : Result :=
  .next (if rxIgnores s then s
    else
      match rxScreen s.wireIn s with
      | some t => t
      | none => rxStop s)

end Sys2Proof.Machine
end

