-- ==== Sys2Proof/Machine/TxDma.lean ====
section
/-! DEFINITION. The meanings of the transmit descriptors, spec 42_tx_dma R190 to R196. -/

namespace Sys2Proof.Machine

/-- `LEN` is in `TX_MINLEN .. TX_MAXLEN` (R191, R192). -/
def txLenOk (len : Half) : Bool := Config.txMinLen ≤ len.toNat && len.toNat ≤ Config.txMaxLen

/-- The descriptor completes with `ERR` and no frame is sent (R192). -/
def txReject (c : DescCtl) (s : State) : State :=
  { setEventIf c.ioc .txf (count .txErr s) with
    mem := store32 s.mem s.tdcur (txErrWord (descWord true c))
    tdcur := nextDesc s.tdsr s.tdcur c.wrap }

/-- Handing the frame over (R191, R196): to WIRE, or in loopback mode to the receive path; `none` is a bus error of
the receive side. -/
def txDeliver (f : List Byte) (s : State) : Option State :=
  if s.ctrlLoop then loopbackReceive f s else some { s with wireTx := s.wireTx ++ [f] }

/-- The end of R191 after the delivery: write-back, count, event, ring advance. -/
def txFinish (c : DescCtl) (s : State) : State :=
  { setEventIf c.ioc .txf (count .txSent s) with
    mem := store32 s.mem s.tdcur (txDoneWord (descWord true c))
    tdcur := nextDesc s.tdsr s.tdcur c.wrap }

/-- The step of TXDMA on the ready descriptor at `TDCUR` whose words are `c` and `buf`. -/
def txProcess (c : DescCtl) (buf : Word) (s : State) : State :=
  if !txLenOk c.len then txReject c s
  else if !admitted s.platform buf c.len.toNat then busError s
  else
    match txDeliver (loadBytes s.mem buf c.len.toNat) s with
    | some t => txFinish c t
    | none => busError s

/-- `TXD` (R191, R192, R195, R196).  TXDMA has an enabled step exactly when `TX_ACTIVE = 1` (R190; log 2). -/
def execTxd (c : DescCtl) (buf : Word) (s : State) : Result :=
  .next (if s.txActive then txProcess c buf s else s)

/-- `TXD_STOP` (R193): the ring stops; the descriptor is not written and `TDCUR` stays. -/
def execTxdStop (_c : DescCtl) (s : State) : Result := .next { s with txActive := false }

end Sys2Proof.Machine
end

