-- ==== Sys2Proof/Machine/Dispatch.lean ====
section
/-! DEFINITION. The meaning of every operation of spec/opcode_table.json, in the table's order. -/

namespace Sys2Proof.Machine

def exec (i : Instr) (s : State) : Host.Outcome State Fault Refusal :=
  match i with
  | .ctrl a => Sys2Proof.Machine.execCtrl a s
  | .eir a => Sys2Proof.Machine.execEir a s
  | .eimr a => Sys2Proof.Machine.execEimr a s
  | .status a => Sys2Proof.Machine.execStatus a s
  | .tdsr a => Sys2Proof.Machine.execTdsr a s
  | .rdsr a => Sys2Proof.Machine.execRdsr a s
  | .tdar a => Sys2Proof.Machine.execTdar a s
  | .rdar a => Sys2Proof.Machine.execRdar a s
  | .rxmax a => Sys2Proof.Machine.execRxmax a s
  | .maclo a => Sys2Proof.Machine.execMaclo a s
  | .machi a => Sys2Proof.Machine.execMachi a s
  | .tdcur a => Sys2Proof.Machine.execTdcur a s
  | .rdcur a => Sys2Proof.Machine.execRdcur a s
  | .mmfr a => Sys2Proof.Machine.execMmfr a s
  | .cntTxSent a => Sys2Proof.Machine.execCntTxSent a s
  | .cntTxErr a => Sys2Proof.Machine.execCntTxErr a s
  | .cntRxStored a => Sys2Proof.Machine.execCntRxStored a s
  | .cntRxNodesc a => Sys2Proof.Machine.execCntRxNodesc a s
  | .cntRxOversize a => Sys2Proof.Machine.execCntRxOversize a s
  | .cntL2ArpAcc a => Sys2Proof.Machine.execCntL2ArpAcc a s
  | .cntL2Ip4Acc a => Sys2Proof.Machine.execCntL2Ip4Acc a s
  | .cntL2ArpDrop a => Sys2Proof.Machine.execCntL2ArpDrop a s
  | .cntL2Ip4Drop a => Sys2Proof.Machine.execCntL2Ip4Drop a s
  | .cntL2OtherDrop a => Sys2Proof.Machine.execCntL2OtherDrop a s
  | .cntArpBad a => Sys2Proof.Machine.execCntArpBad a s
  | .cntIp4Badhdr a => Sys2Proof.Machine.execCntIp4Badhdr a s
  | .cntIp4Badcsum a => Sys2Proof.Machine.execCntIp4Badcsum a s
  | .cntIp4Baddst a => Sys2Proof.Machine.execCntIp4Baddst a s
  | .cntIp4Badproto a => Sys2Proof.Machine.execCntIp4Badproto a s
  | .cntIcmpDrop a => Sys2Proof.Machine.execCntIcmpDrop a s
  | .cntUdpBadlen a => Sys2Proof.Machine.execCntUdpBadlen a s
  | .cntUdpNoport a => Sys2Proof.Machine.execCntUdpNoport a s
  | .ppCmd a => Sys2Proof.Machine.execPpCmd a s
  | .ppStatus a => Sys2Proof.Machine.execPpStatus a s
  | .p0 a => Sys2Proof.Machine.execP0 a s
  | .p1 a => Sys2Proof.Machine.execP1 a s
  | .p2 a => Sys2Proof.Machine.execP2 a s
  | .p3 a => Sys2Proof.Machine.execP3 a s
  | .p4 a => Sys2Proof.Machine.execP4 a s
  | .p5 a => Sys2Proof.Machine.execP5 a s
  | .p6 a => Sys2Proof.Machine.execP6 a s
  | .p7 a => Sys2Proof.Machine.execP7 a s
  | .ip4Addr a => Sys2Proof.Machine.execIp4Addr a s
  | .ip4Mask a => Sys2Proof.Machine.execIp4Mask a s
  | .ip4Gw a => Sys2Proof.Machine.execIp4Gw a s
  | .ip4Ttl a => Sys2Proof.Machine.execIp4Ttl a s
  | .arpSel a => Sys2Proof.Machine.execArpSel a s
  | .arpIp a => Sys2Proof.Machine.execArpIp a s
  | .arpMaclo a => Sys2Proof.Machine.execArpMaclo a s
  | .arpMachi a => Sys2Proof.Machine.execArpMachi a s
  | .arpTs a => Sys2Proof.Machine.execArpTs a s
  | .udpPort0 a => Sys2Proof.Machine.execUdpPort0 a s
  | .udpPort1 a => Sys2Proof.Machine.execUdpPort1 a s
  | .udpPort2 a => Sys2Proof.Machine.execUdpPort2 a s
  | .udpPort3 a => Sys2Proof.Machine.execUdpPort3 a s
  | .udpPort4 a => Sys2Proof.Machine.execUdpPort4 a s
  | .udpPort5 a => Sys2Proof.Machine.execUdpPort5 a s
  | .udpPort6 a => Sys2Proof.Machine.execUdpPort6 a s
  | .udpPort7 a => Sys2Proof.Machine.execUdpPort7 a s
  | .reserved offset a => Sys2Proof.Machine.execReserved offset a s
  | .txd c buf => Sys2Proof.Machine.execTxd c buf s
  | .txdStop c => Sys2Proof.Machine.execTxdStop c s
  | .rxd c buf => Sys2Proof.Machine.execRxd c buf s
  | .rxdStop c => Sys2Proof.Machine.execRxdStop c s
  | .mdioRead pa ra ta data => Sys2Proof.Machine.execMdioRead pa ra ta data s
  | .mdioWrite pa ra ta data => Sys2Proof.Machine.execMdioWrite pa ra ta data s
  | .mmfrNoOperation word => Sys2Proof.Machine.execMmfrNoOperation word s
  | .nop => Sys2Proof.Machine.execNop s
  | .cksum => Sys2Proof.Machine.execCksum s
  | .ethHdr => Sys2Proof.Machine.execEthHdr s
  | .arpReq => Sys2Proof.Machine.execArpReq s
  | .arpReply => Sys2Proof.Machine.execArpReply s
  | .ip4Hdr => Sys2Proof.Machine.execIp4Hdr s
  | .icmpEchoReq => Sys2Proof.Machine.execIcmpEchoReq s
  | .icmpEchoReply => Sys2Proof.Machine.execIcmpEchoReply s
  | .udpHdr csum => Sys2Proof.Machine.execUdpHdr csum s
  | .rxClassify => Sys2Proof.Machine.execRxClassify s
  | .ip4Nexthop => Sys2Proof.Machine.execIp4Nexthop s
  | .arpResolve => Sys2Proof.Machine.execArpResolve s
  | .arpUpdate => Sys2Proof.Machine.execArpUpdate s
  | .udpBind => Sys2Proof.Machine.execUdpBind s
  | .udpUnbind => Sys2Proof.Machine.execUdpUnbind s
  | .ppIllegal word => Sys2Proof.Machine.execPpIllegal word s

end Sys2Proof.Machine
end

