-- ==== Sys2Proof/Machine/Contract.lean ====
section
/-! DEFINITION. The host's half of the contract: the ownership rules of spec 20_memory R91, R96 and 70_reset R400, R401, R407,
whose breach 93_implementation_defined U1 to U4 treat as a fault of the run.  Nothing here is an effect of the block. -/

namespace Sys2Proof.Machine

/-- A range of system memory.  A range that would run past 0xFFFFFFFF counts up to there only, and holds no byte from
address 0 on: DESIGN CHOICE, log 23. -/
structure Span where
  start : Word
  len : Nat
deriving DecidableEq, Repr

/-- Two ranges share a byte; an empty range shares none. -/
def Span.overlaps (a b : Span) : Bool :=
  0 < a.len && 0 < b.len && a.start.toNat < b.start.toNat + b.len && b.start.toNat < a.start.toNat + a.len

/-- Every byte of `b` belongs to `a`. -/
def Span.covers (a b : Span) : Bool :=
  a.start.toNat ≤ b.start.toNat && b.start.toNat + b.len ≤ a.start.toNat + a.len

/-- Some range of the list meets `a`. -/
def meetsAny (a : Span) (l : List Span) : Bool := l.any a.overlaps

/-- No two ranges of a list overlap. -/
def pairwiseApart : List Span → Bool
  | [] => true
  | a :: t => !meetsAny a t && pairwiseApart t

/-! ## The rings as the host laid them out (R320, R321; log 12) -/

/-- The descriptor array of a ring: as many slots of 8 bytes as its capacity.  Words an engine reaches beyond it are no
descriptors of the contract: R407 and U13 define the run through them. -/
def ringSlots (base : Word) (capacity : Nat) : List Word := (List.range capacity).map fun k => base + ofLen (8 * k)

/-- The slots of the Tx ring. -/
def txSlots (s : State) : List Word := ringSlots s.tdsr s.platform.txCapacity

/-- The slots of the Rx ring. -/
def rxSlots (s : State) : List Word := ringSlots s.rdsr s.platform.rxCapacity

/-- The descriptors the Tx ring can be said to have: its slots, and the one at `TDCUR` wherever that stands (R194). -/
def txDescs (s : State) : List Word :=
  if (txSlots s).contains s.tdcur then txSlots s else txSlots s ++ [s.tdcur]

/-- The descriptors of the Rx ring: its slots, and the one at `RDCUR` (R210). -/
def rxDescs (s : State) : List Word :=
  if (rxSlots s).contains s.rdcur then rxSlots s else rxSlots s ++ [s.rdcur]

/-- `OWN = 1` in memory. -/
def isReady (s : State) (d : Word) : Bool := ownBit (load32 s.mem d)

/-- The Tx ring has a place: it is active, or its base is not the reset value (R392). -/
def txPlaced (s : State) : Bool := s.txActive || s.tdsr != 0#32

/-- The Rx ring has a place. -/
def rxPlaced (s : State) : Bool := s.rxActive || s.rdsr != 0#32

/-- The ready ones of some slots. -/
def readyOf (s : State) (slots : List Word) : List Word := slots.filter (isReady s)

/-- The ready descriptors of the Tx ring, wherever in the ring they stand. -/
def txReady (s : State) : List Word := if txPlaced s then readyOf s (txSlots s) else []

/-- The ready descriptors of the Rx ring. -/
def rxReady (s : State) : List Word := if rxPlaced s then readyOf s (rxSlots s) else []

/-- The ready descriptors of the Tx ring, the one at `TDCUR` among them. -/
def txHeld (s : State) : List Word := if txPlaced s then readyOf s (txDescs s) else []

/-- The ready descriptors of the Rx ring, the one at `RDCUR` among them. -/
def rxHeld (s : State) : List Word := if rxPlaced s then readyOf s (rxDescs s) else []

/-- The eight bytes of a descriptor. -/
def descSpan (d : Word) : Span := ⟨d, 8⟩

/-- The buffer a Tx descriptor names: `LEN` bytes, also where the length is out of range and the engine will read none of
them (R192). -/
def txBuffer (s : State) (d : Word) : Span := ⟨load32 s.mem (d + 4#32), (descCtlOf (load32 s.mem d)).len.toNat⟩

/-- The bytes of its buffer that a Tx descriptor can share with another: none where the length is out of range, for then
R192 and U20 define its completion and no byte of it is read. -/
def txSharedBuffer (s : State) (d : Word) : Span :=
  if txLenOk (descCtlOf (load32 s.mem d)).len then txBuffer s d else ⟨load32 s.mem (d + 4#32), 0⟩

/-- The buffer of an Rx descriptor: the bytes R320 has it hold at least (R404). -/
def rxBuffer (s : State) (d : Word) : Span := ⟨load32 s.mem (d + 4#32), s.platform.maxFrameSize⟩

/-! ## The footprint of a pending command (R96; log 15) -/

/-- What a pending command claims: its operand check (R222 step 1) and the byte range its rule names as its footprint
(step 2). -/
structure PpClaim where
  check : Option PpResult
  span : Span
deriving DecidableEq, Repr

/-- The claim of the command in `PP_CMD` (R225 to R232, R260), from the accepted write to the completion step; a command
without a footprint has none. -/
def ppClaim (s : State) : Option PpClaim :=
  if !s.ppBusy then none
  else
    match decodePp s.ppCmd with
    | .cksum => some ⟨cksumCheck s, s.p.p0, cksumLen s⟩
    | .ethHdr => some ⟨ethHdrCheck s, frameBase s, 14⟩
    | .arpReq => some ⟨none, frameBase s, 42⟩
    | .arpReply => some ⟨arpReplyCheck s, frameBase s, 42⟩
    | .ip4Hdr => some ⟨ip4HdrCheck s, frameBase s + 14#32, 20⟩
    | .icmpEchoReq => some ⟨icmpEchoReqCheck s, frameBase s + 34#32, icmpEchoReqLen s⟩
    | .icmpEchoReply => some ⟨icmpEchoReplyCheck s, frameBase s, icmpEchoReplyLen s⟩
    | .udpHdr csum => some ⟨udpHdrCheck s, frameBase s + 34#32, udpHdrLen csum s⟩
    | .rxClassify => some ⟨rxClassifyCheck s, frameBase s, rxClassifyLen s⟩
    | _ => none

/-- The footprint of the pending command, whatever its operand check will say (R96). -/
def ppFootprint (s : State) : List Span := (ppClaim s).toList.map PpClaim.span

/-- The pending command will access its footprint: it gets past steps 1 and 2 of R222, and does not end with the error code
of the first that fails. -/
def ppAccesses (s : State) : Bool :=
  (ppClaim s).any fun c => c.check.isNone && admitted s.platform c.span.start c.span.len

/-! ## Sharing (R407, R96; log 14) -/

/-- The descriptor arrays, slot by slot: an array may run on from 0xFFFFFFF8 to 0 (R194). -/
def arraySpans (s : State) : List Span :=
  ((if txPlaced s then txSlots s else []) ++ (if rxPlaced s then rxSlots s else [])).map descSpan

/-- What must be apart within the rings (R407): the descriptor arrays, and the buffers their ready slots name.  A
descriptor that is not ready holds no buffer (R91). -/
def ringSpans (s : State) : List Span :=
  arraySpans s ++ (txReady s).map (txSharedBuffer s) ++ (rxReady s).map (rxBuffer s)

/-- What a pending footprint must be apart from: the buffer of every ready descriptor, the one at the ring's pointer among
them (R96); and, for a command that will access its footprint, the descriptor arrays and the ready descriptors (R407).
A command that will not ends with its error code over those (R222). -/
def heldSpans (s : State) : List Span :=
  (if ppAccesses s then arraySpans s ++ (txHeld s ++ rxHeld s).map descSpan else []) ++
    (txHeld s).map (txBuffer s) ++ (rxHeld s).map (rxBuffer s)

/-- R96: the pending footprint meets nothing the rings hold. -/
def footprintApart (s : State) : Bool := (ppFootprint s).all fun a => !meetsAny a (heldSpans s)

/-- R407 and R96: nothing the hardware holds overlaps. -/
def sharingOk (s : State) : Bool := pairwiseApart (ringSpans s) && footprintApart s

/-! ## Accesses of the host while the hardware owns (R91, R400, R96) -/

/-- The descriptors TXDMA owns now: the ready slots of its active ring, and the ready descriptor at `TDCUR` wherever that
points (R91, R194). -/
def txOwned (s : State) : List Word := if s.txActive then readyOf s (txDescs s) else []

/-- The descriptors RXDMA owns now. -/
def rxOwned (s : State) : List Word := if s.rxActive then readyOf s (rxDescs s) else []

/-- The bytes of the descriptors the engines own now. -/
def ownedDescs (s : State) : List Span := (txOwned s ++ rxOwned s).map descSpan

/-- The buffers the engines own now. -/
def ownedBuffers (s : State) : List Span := (txOwned s).map (txBuffer s) ++ (rxOwned s).map (rxBuffer s)

/-- What a host read of `a` breaks: an owned buffer (R400), or the footprint of a pending command (R96).  Reading a
descriptor is how the host polls it. -/
def hostReadBreach (a : Span) (s : State) : Option Fault :=
  if meetsAny a (ownedBuffers s) then some .ownership
  else if meetsAny a (ppFootprint s) then some .ppFootprint
  else none

/-- What a host store to `a` breaks: an owned descriptor or buffer (R91, R400), a pending footprint (R96); or a store
made while the footprint overlaps what the rings hold, which that store could undo. -/
def hostStoreBreach (a : Span) (s : State) : Option Fault :=
  if meetsAny a (ownedDescs s ++ ownedBuffers s) then some .ownership
  else if meetsAny a (ppFootprint s) then some .ppFootprint
  else if footprintApart s then none
  else some .sharedMemory

/-! ## What happens between a hand-over and the activation (R400, R401, R96; log 13) -/

/-- The descriptor slots (multiples of 8) whose word 0 a store of `n` bytes at `a` touches. -/
def touchedSlots (a : Word) (n : Nat) : List Word :=
  ((List.range (n / 8 + 2)).map fun i => (a &&& 0xFFFFFFF8#32) + ofLen (8 * i)).filter
    fun d => (Span.mk a n).overlaps ⟨d, 4⟩

/-- The word-1 bytes of a descriptor. -/
def word1Span (d : Word) : Span := ⟨d + 4#32, 4⟩

/-- A hand-over of which no breach is noted. -/
def Handover.fresh (d : Word) : Handover := ⟨d, false, none, none, none, none⟩

/-- A breach noted on a hand-over, the first one kept. -/
def Handover.mark (h : Handover) (tx rx : Bool) (f : Fault) : Handover :=
  { h with
    tx := h.tx.or (if tx then some f else none)
    rx := h.rx.or (if rx then some f else none)
    rxAnew := h.rxAnew.or (if rx then some f else none)
    txAnew := h.txAnew.or (if tx then some f else none) }

/-- A hand-over after a host store that leaves its word 0 alone: broken if the store touches word 1 or the buffer
(R401). -/
def Handover.afterStore (s : State) (a : Span) (h : Handover) : Handover :=
  let word1 := a.overlaps (word1Span h.desc)
  { h.mark (word1 || a.overlaps (txBuffer s h.desc)) (word1 || a.overlaps (rxBuffer s h.desc)) .handover with
    word1Since := h.word1Since || word1 }

/-- A store to the word 0 of `h` that leaves `OWN = 1`: a second store to an owned descriptor (R400).  A whole word 0
stored after word 1 builds the descriptor anew, in R401's order, as R320 does before it writes `RDSR`; the breach stands
unless that write, or the one to `TDSR`, follows.  A ready descriptor of a Tx ring with a place is not to be overwritten
even so (R322). -/
def Handover.again (s : State) (a : Span) (h : Handover) : Handover :=
  let word1 := h.word1Since || a.overlaps (word1Span h.desc)
  let anew := word1 && a.covers ⟨h.desc, 4⟩
  let m := h.mark true true .ownership
  { m with
    word1Since := word1 && !anew
    rxAnew := if anew then none else m.rxAnew
    txAnew := if anew && !(txHeld s).contains h.desc then none else m.txAnew }

/-- The hand-overs still in force, the engine not having cleared `OWN`: those on record, and the ready descriptors of a
ring with a place that no host store of word 0 has made. -/
def inForce (s : State) : List Handover :=
  (s.handed.filter fun h => isReady s h.desc) ++
    ((txHeld s ++ rxHeld s).filter fun d => !s.handed.any fun h => h.desc == d).map Handover.fresh

/-- The record of hand-overs after a host store to `a` that leaves memory `m`. -/
def handedAfterStore (s : State) (a : Span) (m : Memory) : List Handover :=
  let slots := touchedSlots a.start a.len
  let kept := ((inForce s).filter fun h => !slots.contains h.desc).map (Handover.afterStore s a)
  let stored := (slots.filter fun d => ownBit (load32 m d)).map fun d =>
    match (inForce s).find? fun h => h.desc == d with
    | some h => h.again s a
    | none => Handover.fresh d
  kept ++ stored

/-- The record of hand-overs after a host read of `a`: broken if the read meets the buffer (R400). -/
def handedAfterRead (s : State) (a : Span) : List Handover :=
  (inForce s).map fun h =>
    h.mark (a.overlaps (txBuffer s h.desc)) (a.overlaps (rxBuffer s h.desc)) .ownership

/-- The buffer `b` that the descriptor `d` names meets the pending footprint (R96), or the descriptor itself does and the
command will access it. -/
def footprintMeets (s : State) (d : Word) (b : Span) : Bool :=
  (ppAccesses s && meetsAny (descSpan d) (ppFootprint s)) || meetsAny b (ppFootprint s)

/-- The record of hand-overs at the end of a command: broken if the footprint meets what is handed over, also in a ring
that has no place yet (R96). -/
def handedAfterPp (s : State) : List Handover :=
  if s.ppBusy then
    s.handed.map fun h =>
      if isReady s h.desc then
        h.mark (footprintMeets s h.desc (txBuffer s h.desc)) (footprintMeets s h.desc (rxBuffer s h.desc)) .sharedMemory
      else h
  else s.handed

/-- A hand-over once `RDSR` is written: the Rx ring is set up again, and the descriptor counts as last built (R320,
R392). -/
def Handover.basedRx (h : Handover) : Handover := { h with rx := h.rxAnew }

/-- A hand-over once `TDSR` is written: what stood there before the Tx ring had its place was no descriptor of it. -/
def Handover.basedTx (h : Handover) : Handover := { h with tx := h.txAnew }

/-- The record of hand-overs after a register access: a write to `TDSR` or `RDSR` that is accepted (R145, R146) matters to
it, and one to `CTRL`, which may abandon the pending command (R140). -/
def handedAfterAccess (i : Instr) (s : State) : List Handover :=
  match i with
  | .ctrl (.write _) => handedAfterPp s
  | .tdsr (.write _) => if s.txActive then s.handed else s.handed.map Handover.basedTx
  | .rdsr (.write _) => if s.rxActive then s.handed else s.handed.map Handover.basedRx
  | _ => s.handed

/-- The breach noted on one of the descriptors `l`. -/
def notedBreach (l : List Word) (noted : Handover → Option Fault) (s : State) : Option Fault :=
  l.findSome? fun d => s.handed.findSome? fun h => if h.desc == d then noted h else none

/-- The breach noted on a ready slot of the Tx ring. -/
def notedTx (s : State) : Option Fault := notedBreach (readyOf s (txSlots s)) Handover.tx s

/-- The breach noted on a ready slot of the Rx ring. -/
def notedRx (s : State) : Option Fault := notedBreach (readyOf s (rxSlots s)) Handover.rx s

/-- The breach noted on a ready descriptor of the Tx ring, the one at `TDCUR` among them. -/
def startBreachTx (s : State) : Option Fault := notedBreach (readyOf s (txDescs s)) Handover.tx s

/-- The breach noted on a ready descriptor of the Rx ring, the one at `RDCUR` among them. -/
def startBreachRx (s : State) : Option Fault := notedBreach (readyOf s (rxDescs s)) Handover.rx s

/-- What a register access breaks: a write that activates a ring (R148, R149) while a breach is noted on a ready descriptor
of it, for then the ring is 'activated before `OWN` is cleared' (R400, R401), where a write to the trigger of a ring
already active changes nothing (R402); a write that could move a ring away, or end
the command, while the pending footprint overlaps what the rings hold (R96). -/
def accessBreach (i : Instr) (s : State) : Option Fault :=
  match i with
  | .tdar (.write _) => if s.ctrlEn && !s.halted && !s.txActive then startBreachTx s else none
  | .rdar (.write _) => if s.ctrlEn && !s.halted && !s.rxActive then startBreachRx s else none
  | .ctrl (.write _) | .tdsr (.write _) | .rdsr (.write _) =>
    if footprintApart s then none else some .sharedMemory
  | _ => none

/-- What an engine must find in order before it goes by a descriptor: no breach noted on a ready slot of an active ring
(R400, R401; run-on words it comes to are U13's, log 12), and nothing the hardware holds overlaps (R407, R96). -/
def contractBreach (s : State) : Option Fault :=
  ((if s.txActive then notedTx s else none).or (if s.rxActive then notedRx s else none)).or
    (if sharingOk s then none else some .sharedMemory)

end Sys2Proof.Machine
end

