-- ==== Sys2Proof/Machine/Fetch.lean ====
section
/-! DEFINITION. How the agent whose turn it is comes by its operation: the host's bus access (spec 20_memory R83, R85), the
descriptor at a ring pointer (R92, R93, R190, R205), the management frame in `MMFR` (R181), the command in `PP_CMD`
(R221). -/

namespace Sys2Proof.Machine

/-- What a turn comes to before any operation runs. -/
inductive Fetched where
  /-- the turn is complete without an operation of the table: a memory access of the host, a drop, a bus error in the
  fetch itself, a reset, or no enabled step -/
  | settled (s : State)
  /-- the host has broken its contract -/
  | stop (f : Fault)
  /-- the access has no meaning -/
  | refuse (r : Refusal)
  /-- the agent runs this operation in this state -/
  | run (i : Instr) (s : State)
deriving DecidableEq, Repr

/-- Bytes of an access width. -/
def Width.bytes : Width → Nat
  | .w8 => 1
  | .w16 => 2
  | .w32 => 4

/-- Some byte of the range lies in the register window. -/
def touchesWindow (pf : Platform) (a : Word) (n : Nat) : Bool :=
  (List.range n).any fun i => inWindow pf (a.toNat + i)

/-- A register access (R83, R111): 32 bits wide, at a multiple of 4 of the window.  The contract looks at a write that
activates a ring or moves one, and notes one that sets a ring up (logs 13, 15). -/
def fetchAccess (addr : Word) (width : Width) (a : RegAccess) (s : State) : Fetched :=
  if width ≠ .w32 || !inWindow s.platform addr.toNat then .refuse .registerAccess
  else
    match decodeMmio ((addr - s.platform.base).extractLsb' 0 12) a with
    | .ok i =>
      match accessBreach i s with
      | some f => .stop f
      | none => .run i { s with handed := handedAfterAccess i s }
    | .rejected _ => .refuse .registerAccess

/-- A little-endian value read from memory, zero-extended (R85). -/
def loadWidth (m : Memory) (a : Word) : Width → Word
  | .w8 => (load8 m a).setWidth 32
  | .w16 => (load8 m (a + 1#32) ++ load8 m a).setWidth 32
  | .w32 => load32 m a

/-- The bytes of a value of a width, least significant first (R85). -/
def widthBytes (d : Word) : Width → List Byte
  | .w8 => [d.extractLsb' 0 8]
  | .w16 => [d.extractLsb' 0 8, d.extractLsb' 8 8]
  | .w32 => leBytes4 d

/-- A host read of system memory; the value goes to `hostData`, and the contract notes the read (log 13). -/
def hostLoad (addr : Word) (width : Width) (s : State) : Fetched :=
  if addr.toNat + width.bytes > 2 ^ 32 then .stop .addressSpace
  else
    match hostReadBreach ⟨addr, width.bytes⟩ s with
    | some f => .stop f
    | none =>
      .settled { readReg (loadWidth s.mem addr width) s with handed := handedAfterRead s ⟨addr, width.bytes⟩ }

/-- A host store of bytes to system memory, and the note the contract keeps of it (log 13). -/
def hostStoreBytes (addr : Word) (bytes : List Byte) (s : State) : Fetched :=
  if addr.toNat + bytes.length > 2 ^ 32 then .stop .addressSpace
  else
    match hostStoreBreach ⟨addr, bytes.length⟩ s with
    | some f => .stop f
    | none =>
      let m := storeBytes s.mem addr bytes
      .settled { s with mem := m, handed := handedAfterStore s ⟨addr, bytes.length⟩ m }

/-- A host read on the system bus. -/
def fetchHostRead (addr : Word) (width : Width) (s : State) : Fetched :=
  if touchesWindow s.platform addr width.bytes then fetchAccess addr width .read s else hostLoad addr width s

/-- A host write on the system bus. -/
def fetchHostWrite (addr : Word) (width : Width) (d : Word) (s : State) : Fetched :=
  if touchesWindow s.platform addr width.bytes then fetchAccess addr width (.write d) s
  else hostStoreBytes addr (widthBytes d width) s

/-- A host store of a byte list; it has no meaning in the register window (R83). -/
def fetchHostStore (addr : Word) (bytes : List Byte) (s : State) : Fetched :=
  if touchesWindow s.platform addr bytes.length then .refuse .registerAccess else hostStoreBytes addr bytes s

/-- The descriptor at `d` (R191, R193, R195, R208, R209, R211; order of R358): word 0 admitted, then `OWN`, then word 1
admitted; a descriptor that is not ready is run with no look at word 1.  The engine goes by what it read only if the
host has kept its contract (`contractBreach`: R400, R401, R407, R96; 93 U1 to U4). -/
def fetchDesc (d : Word) (dec : Word → Word → Instr) (s : State) : Fetched :=
  if !admitted s.platform d 4 then .settled (busError s)
  else if isReady s d && !admitted s.platform (d + 4#32) 4 then .settled (busError s)
  else
    match contractBreach s with
    | some f => .stop f
    | none => .run (dec (load32 s.mem d) (if isReady s d then load32 s.mem (d + 4#32) else 0#32)) s

/-- TXDMA's turn (R190): it has an enabled step exactly when `TX_ACTIVE = 1`. -/
def fetchTx (s : State) : Fetched :=
  if s.txActive then fetchDesc s.tdcur decodeTxDesc s else .settled s

/-- WIRE offers a frame (R205 to R207, R358): ignored, dropped, or decided by the descriptor at `RDCUR`. -/
def fetchRx (s : State) : Fetched :=
  if rxIgnores s then .settled s
  else
    match rxScreen s.wireIn s with
    | some t => .settled t
    | none => fetchDesc s.rdcur decodeRxDesc s

/-- The MDIO engine's turn (R181 to R183): the management word in `MMFR`. -/
def fetchMdio (s : State) : Fetched := .run (decodeMmfr s.mmfr) s

/-- The PP's turn (R221): the command in `PP_CMD`; the contract notes what its footprint meets (R96, log 15). -/
def fetchPp (s : State) : Fetched :=
  if !footprintApart s then .stop .sharedMemory else .run (decodePp s.ppCmd) { s with handed := handedAfterPp s }

/-- One turn, in the state with the turn taken off the schedule. -/
def fetchTurn (t : Turn) (s : State) : Fetched :=
  match t with
  | .hostRead addr width => fetchHostRead addr width s
  | .hostWrite addr width d => fetchHostWrite addr width d s
  | .hostStore addr bytes => fetchHostStore addr bytes s
  | .txdma => fetchTx s
  | .mdio answer => fetchMdio { s with phyIn := answer }
  | .pp => fetchPp s
  | .wire frame => fetchRx { s with wireIn := frame }
  | .reset => .settled (resetBlock s)

/-- The next turn of the schedule; with none left the block waits (R393; log 1). -/
def fetch (s : State) : Fetched :=
  match s.schedule with
  | [] => .settled s
  | t :: rest => fetchTurn t { s with schedule := rest }

/-! ## Placing a bare word of the opcode table where the next step fetches it (log 9) -/

/-- A descriptor's address for a placed word: the ring pointer if its eight bytes are admitted, else the first
multiple of 8 in the first range of `DmaWindow`. -/
def placedDesc (cur : Word) (s : State) : Word :=
  if admitted s.platform cur 8 then cur
  else
    match s.platform.dmaWindow with
    | [] => cur
    | r :: _ => (r.1 + 7#32) &&& 0xFFFFFFF8#32

/-- The MMIO access a table word stands for, as a turn of the host. -/
def placedTurn (s : State) (v : BitVec 48) : Turn :=
  let addr := s.platform.base + (v.extractLsb' 0 12).setWidth 32
  match mmioAccess v with
  | .read => .hostRead addr .w32
  | .write d => .hostWrite addr .w32 d

/-- `s` with the word of the opcode table placed so that the very next step fetches and runs it. -/
def placeWord (s : State) (nbits w : Nat) : State :=
  let v := w % 2 ^ nbits
  match tableFormat nbits w with
  | .mmio => { s with schedule := placedTurn s (BitVec.ofNat 48 v) :: s.schedule }
  | .ppCmd => { s with ppCmd := BitVec.ofNat 32 v, ppBusy := true, schedule := .pp :: s.schedule }
  | .mmfr =>
    { s with
      mmfr := BitVec.ofNat 32 v
      mdioBusy := mmfrStarts (BitVec.ofNat 32 v)
      schedule := .mdio 0#16 :: s.schedule }
  | .txDesc | .rxDesc =>
    let d := placedDesc s.tdcur s
    { s with
      ctrlEn := true
      halted := false
      txActive := true
      tdsr := if d = s.tdcur then s.tdsr else d
      tdcur := d
      mem := store32 (store32 s.mem d (BitVec.ofNat 32 v)) (d + 4#32) (BitVec.ofNat 32 (v / 2 ^ 32))
      schedule := .txdma :: s.schedule }

end Sys2Proof.Machine
end

