-- ==== Sys2Proof/Machine/Step.lean ====
section
/-! DEFINITION. One step of the machine: the agent whose turn it is takes its one atomic step (spec 00_scope R7, R8). -/

namespace Sys2Proof.Machine

/-- One step: what the turn fetches (Machine/Fetch.lean), run by `exec`. -/
def step (s : State) : Host.Outcome State Fault Refusal :=
  match fetch s with
  | .settled t => .next t
  | .stop f => .fault f
  | .refuse r => .refused r
  | .run i t => exec i t

/-- `s` with an operation of the opcode table stored where `step` fetches its next one (log 9). -/
def State.withFetchWord (s : State) (nbits w : Nat) : State := placeWord s nbits w

end Sys2Proof.Machine
end

