-- ==== Sys2Proof/Safety.lean ====
section
/-! DEFINITION. What statements say of a state: quiescence (00_scope R10), the constraints on the platform's parameters
(R11), and the invariant every step keeps, clause by clause from the rules. -/

namespace Sys2Proof.Machine

/-- The block is quiescent (R10). -/
def State.quiescent (s : State) : Bool := !s.txActive && !s.mdioBusy && !s.ppBusy

/-- The platform's parameters as R11 and 93 list 2 constrain them: `BASE` a multiple of 0x1000. -/
def Platform.aligned (pf : Platform) : Bool := pf.base.toNat % 0x1000 == 0

/-- The invariant of the machine. -/
structure State.Inv (s : State) : Prop where
  /-- memory is in canonical form -/
  memory : memoryWf s.mem = true
  /-- the ring registers are multiples of 8 (R26, R30) -/
  tdsr : s.tdsr.toNat % 8 = 0
  rdsr : s.rdsr.toNat % 8 = 0
  tdcur : s.tdcur.toNat % 8 = 0
  rdcur : s.rdcur.toNat % 8 = 0
  /-- an active ring means the MAC is enabled and not halted (R190) -/
  txEnabled : s.txActive = true → s.ctrlEn = true ∧ s.halted = false
  rxEnabled : s.rxActive = true → s.ctrlEn = true ∧ s.halted = false
  /-- a pending MDIO operation is in `MMFR` (R44, R180) -/
  mdioPending : s.mdioBusy = true → mmfrStarts s.mmfr = true
  /-- at most one entry per IPv4 address among the non-`EMPTY` ones (R39, R296a) -/
  arpUnique : ∀ i j : Fin 16,
    s.arp[i].state ≠ .empty → s.arp[j].state ≠ .empty → s.arp[i].ip = s.arp[j].ip → i = j
  /-- an `EMPTY` entry is as reset left it (R296b) -/
  arpEmpty : ∀ i : Fin 16, s.arp[i].state = .empty → s.arp[i] = ArpEntry.zero
  /-- a `PENDING` entry has no MAC address (R39, R296c) -/
  arpPending : ∀ i : Fin 16, s.arp[i].state = .pending → s.arp[i].mac = 0#48
  /-- no two slots hold the same non-zero port (R41, R301) -/
  ports : ∀ j k : Fin 8, s.udpPort[j] ≠ 0#16 → s.udpPort[j] = s.udpPort[k] → j = k

/-! ## Words of the statements -/

/-- Memory `m'` reads as `m` at every address outside the `n` bytes at `a`. -/
def sameOutside (m m' : Memory) (a : Word) (n : Nat) : Prop :=
  ∀ x : Nat, (∀ i, i < n → x ≠ (a + BitVec.ofNat 32 i).toNat) → loadByte m' x = loadByte m x

/-- The `n` bytes at `a` and the `k` bytes at `b` share no address. -/
def apart (a : Word) (n : Nat) (b : Word) (k : Nat) : Prop :=
  ∀ i, i < n → ∀ j, j < k → a + BitVec.ofNat 32 i ≠ b + BitVec.ofNat 32 j

/-- A command has completed with result `r` in `s` (R221): `RESULT`, `PP_BUSY` and `EIR.PPD` (bit 3). -/
def State.completed (s : State) (r : PpResult) : State :=
  { s with ppResult := r, ppBusy := false, eir := s.eir ||| 0b01000#5 }

/-- The bus-error action (R353) applied to `s`. -/
def State.busErrored (s : State) : State :=
  { s with eir := s.eir ||| 0b10000#5, halted := true, txActive := false, rxActive := false }

/-- Every register, flag, counter and table at the value R20, R39, R41, R45 and R390 give for reset. -/
structure State.registersAtReset (t : State) : Prop where
  ctrl : t.ctrlEn = false ∧ t.ctrlLoop = false
  events : t.eir = 0#5 ∧ t.eimr = 0#5
  status : t.txActive = false ∧ t.rxActive = false ∧ t.mdioBusy = false ∧ t.ppBusy = false ∧ t.halted = false
  rings : t.tdsr = 0#32 ∧ t.rdsr = 0#32 ∧ t.tdcur = 0#32 ∧ t.rdcur = 0#32
  receive : t.rxmax = 0#16
  station : t.maclo = 0#32 ∧ t.machi = 0#16
  management : t.mmfr = 0#32
  counts : ∀ n : CounterName, t.counters.get n = 0#32
  command : t.ppCmd = 0#32 ∧ t.ppResult = .ok
  operands : t.p = ⟨0#32, 0#32, 0#32, 0#32, 0#32, 0#32, 0#32, 0#32⟩
  layer3 : t.ip4Addr = 0#32 ∧ t.ip4Mask = 0#32 ∧ t.ip4Gw = 0#32 ∧ t.ip4Ttl = 0x40#8
  window : t.arpSel = 0#4
  cache : ∀ i : Fin 16, t.arp[i] = ⟨.empty, 0#32, 0#48, 0#32⟩
  ports : ∀ k : Fin 8, t.udpPort[k] = 0#16

/-- A write to `CTRL` with `SRST` (R140): the one access that resets. -/
def softReset : Instr → Bool
  | .ctrl (.write d) => d.getLsbD 31
  | _ => false

/-- A write to `EIR`, the one access that clears events (R356). -/
def eirWrite : Instr → Bool
  | .eir (.write _) => true
  | _ => false

/-- The acceptance column of R162, by register offset. -/
def writeAccepted (offset : Nat) (s : State) : Bool :=
  if offset = 0x000 ∨ offset = 0x004 ∨ offset = 0x008 ∨ offset = 0x020 then true
  else if offset = 0x010 then !s.txActive
  else if offset = 0x014 then !s.rxActive
  else if offset = 0x018 ∨ offset = 0x01C then s.ctrlEn && !s.halted
  else if offset = 0x034 then !s.mdioBusy
  else if offset = 0x100 ∨ (0x108 ≤ offset ∧ offset ≤ 0x124) ∨ (0x140 ≤ offset ∧ offset ≤ 0x150) ∨
      offset = 0x024 ∨ offset = 0x028 then !s.ppBusy
  else false

/-- The five Layer-2 counters of R261. -/
def layer2Counter : CounterName → Bool
  | .l2ArpAcc | .l2Ip4Acc | .l2ArpDrop | .l2Ip4Drop | .l2OtherDrop => true
  | _ => false

/-- The eight drop counters of the later stages of R262 to R265. -/
def dropCounter : CounterName → Bool
  | .arpBad | .ip4Badhdr | .ip4Badcsum | .ip4Baddst | .ip4Badproto | .icmpDrop | .udpBadlen | .udpNoport => true
  | _ => false

/-! ## Words about turns -/

/-- A turn that resets the block: the hardware reset, or the write to `CTRL` with `SRST` (R390). -/
def resetTurn (pf : Platform) : Turn → Bool
  | .reset => true
  | .hostWrite addr .w32 d => addr == pf.base && d.getLsbD 31
  | _ => false

/-- A turn that writes `EIR`, the one register whose write clears events (R356). -/
def eirTurn (pf : Platform) : Turn → Bool
  | .hostWrite addr .w32 _ => addr == pf.base + 4#32
  | _ => false

/-- The bytes of the system bus a host turn touches: whether it stores, the address, the length. -/
def hostAccess : Turn → Option (Bool × Word × Nat)
  | .hostRead addr width => some (false, addr, width.bytes)
  | .hostWrite addr width _ => some (true, addr, width.bytes)
  | .hostStore addr bytes => some (true, addr, bytes.length)
  | _ => none

/-- Some byte belongs to the `n` bytes at `a` and to the `k` bytes at `b`. -/
def bytesMeet (a : Word) (n : Nat) (b : Word) (k : Nat) : Prop :=
  ∃ x : Nat, a.toNat ≤ x ∧ x < a.toNat + n ∧ b.toNat ≤ x ∧ x < b.toNat + k

/-- `d` is a ready slot of the Tx ring's array. -/
def readySlotTx (s : State) (d : Word) : Prop :=
  (∃ k, k < s.platform.txCapacity ∧ d = s.tdsr + BitVec.ofNat 32 (8 * k)) ∧ ownBit (load32 s.mem d) = true

/-- `d` is a ready slot of the Rx ring's array. -/
def readySlotRx (s : State) (d : Word) : Prop :=
  (∃ k, k < s.platform.rxCapacity ∧ d = s.rdsr + BitVec.ofNat 32 (8 * k)) ∧ ownBit (load32 s.mem d) = true

/-- `d` is a ready descriptor of the Tx ring: a ready slot, or the ready descriptor at `TDCUR` (R194). -/
def readyDescTx (s : State) (d : Word) : Prop := readySlotTx s d ∨ (d = s.tdcur ∧ ownBit (load32 s.mem d) = true)

/-- `d` is a ready descriptor of the Rx ring. -/
def readyDescRx (s : State) (d : Word) : Prop := readySlotRx s d ∨ (d = s.rdcur ∧ ownBit (load32 s.mem d) = true)

/-- `d` is a descriptor TXDMA owns (R91, R400). -/
def ownedTx (s : State) (d : Word) : Prop := s.txActive = true ∧ readyDescTx s d

/-- `d` is a descriptor RXDMA owns. -/
def ownedRx (s : State) (d : Word) : Prop := s.rxActive = true ∧ readyDescRx s d

/-- A breach is noted on one of some descriptors (log 13). -/
def notedOn (s : State) (descs : Word → Prop) (noted : Handover → Option Fault) : Prop :=
  ∃ d h, descs d ∧ h ∈ s.handed ∧ h.desc = d ∧ noted h ≠ none

/-- What stops an engine (logs 12 to 15): a breach noted on a ready slot of an active ring (R400, R401), two things the
rings hold that overlap (R407), or a pending footprint that overlaps one (R96). -/
def contractBroken (s : State) : Prop :=
  (s.txActive = true ∧ notedOn s (readySlotTx s) Handover.tx) ∨
  (s.rxActive = true ∧ notedOn s (readySlotRx s) Handover.rx) ∨
  (∃ (i j : Nat) (a b : Span), i < j ∧ (ringSpans s)[i]? = some a ∧ (ringSpans s)[j]? = some b ∧
    bytesMeet a.start a.len b.start b.len) ∨
  (∃ a b : Span, a ∈ ppFootprint s ∧ b ∈ heldSpans s ∧ bytesMeet a.start a.len b.start b.len)

end Sys2Proof.Machine
end

