-- ==== Sys2Proof/Certificates/Slice0/Obligations.lean ====
section
/-! DEFINITION. The statements about the model, one definition each; OBLIGATIONS.json says what each formalises. -/

open Sys2Proof Sys2Proof.Machine

/-! ## Encoding -/

/-- Decoding an encoded well-formed operation gives it back, for every operand. -/
def Obligations.DecodeAndEncodeAgree : Prop :=
  ∀ i : Instr, i.wellFormed = true → decode (formatOf i) (encode i) = .ok i

/-- Every management word and every command word decodes to one well-formed operation, which encodes to that word. -/
def Obligations.WordsHaveOneMeaning : Prop :=
  ∀ w : Word,
    ((decodeMmfr w).wellFormed = true ∧ formatOf (decodeMmfr w) = .mmfr ∧ encode (decodeMmfr w) = leBytes4 w) ∧
    ((decodePp w).wellFormed = true ∧ formatOf (decodePp w) = .ppCmd ∧ encode (decodePp w) = leBytes4 w)

/-- R120: which command words are illegal, that they are accepted like any other, and how they complete. -/
def Obligations.IllegalCommandsCompleteWithBadCmd : Prop :=
  ∀ (w : Word) (s : State),
    (decodePp w = .ppIllegal w ↔
      (w.extractLsb' 9 23 ≠ 0#23 ∨ 0x0F ≤ (w.extractLsb' 0 8).toNat ∨
        (w.getLsbD 8 = true ∧ w.extractLsb' 0 8 ≠ 0x08#8))) ∧
    (s.ppBusy = false → exec (.ppCmd (.write w)) s = .next { s with ppCmd := w, ppBusy := true }) ∧
    (s.ppBusy = true → exec (.ppIllegal w) s = .next (s.completed .errBadCmd))

/-- Words written out from the encoding tables of 30_encoding decode to the operations they stand for. -/
def Obligations.SampleWordsDecode : Prop :=
  decode .mmfr [0x00#8, 0x00#8, 0x06#8, 0x60#8] = .ok (.mdioRead 0#5 1#5 0b10#2 0#16) ∧
  decode .mmfr [0x00#8, 0x92#8, 0x02#8, 0x50#8] = .ok (.mdioWrite 0#5 0#5 0b10#2 0x9200#16) ∧
  decode .ppCmd [0x08#8, 0x01#8, 0x00#8, 0x00#8] = .ok (.udpHdr true) ∧
  decode .ppCmd [0x09#8, 0x00#8, 0x00#8, 0x00#8] = .ok .rxClassify ∧
  decode .txDesc [0x2A#8, 0x00#8, 0x00#8, 0xA0#8, 0x00#8, 0x10#8, 0x00#8, 0x20#8] =
    .ok (.txd ⟨false, true, false, false, 0#11, 42#16⟩ 0x20001000#32) ∧
  decode .rxDesc [0x3C#8, 0x00#8, 0x00#8, 0x30#8, 0x00#8, 0x20#8, 0x00#8, 0x20#8] =
    .ok (.rxdStop ⟨false, true, true, false, 0#11, 60#16⟩) ∧
  decode .mmio [0x10#8, 0x30#8, 0x20#8, 0x00#8, 0x00#8, 0x04#8] = .ok (.tdsr (.write 0x20000101#32))

/-- R111, R20, R21: every multiple of 4 in the window selects one register or the reserved behaviour, and no other
offset selects anything. -/
def Obligations.RegisterWindowDecodes : Prop :=
  ∀ (offset : BitVec 12) (a : RegAccess),
    (offset.toNat % 4 = 0 → ∃ i, decodeMmio offset a = .ok i ∧ i.wellFormed = true ∧ formatOf i = .mmio ∧
      encode i = encodeMmio offset a ∧ ((∃ o b, i = .reserved o b) ↔ reservedOffset offset = true)) ∧
    (offset.toNat % 4 ≠ 0 → decodeMmio offset a = .rejected .misalignedOffset)

/-! ## The step -/

/-- When the object an agent fetches decodes to `i`, the step is `exec i` in the state with the turn taken off the
schedule and the environment's input latched.  The contract's conditions (R400, R401, R407, R96) stand as
hypotheses; it notes the command's end and a write that sets a ring up in `handed` (logs 13, 15), which no
operation reads. -/
def Obligations.StepRunsTheDecodedOperation : Prop :=
  ∀ (s : State) (rest : List Turn) (i : Instr),
    (s.schedule = .txdma :: rest → s.txActive = true → admitted s.platform s.tdcur 4 = true →
      decode .txDesc (loadBytes s.mem s.tdcur 8) = .ok i →
      (ownBit (load32 s.mem s.tdcur) = true → admitted s.platform (s.tdcur + 4#32) 4 = true) →
      contractBreach s = none →
      step s = exec i { s with schedule := rest }) ∧
    (∀ f, s.schedule = .wire f :: rest → rxIgnores s = false → rxScreen f s = none →
      admitted s.platform s.rdcur 4 = true → decode .rxDesc (loadBytes s.mem s.rdcur 8) = .ok i →
      (ownBit (load32 s.mem s.rdcur) = true → admitted s.platform (s.rdcur + 4#32) 4 = true) →
      contractBreach s = none →
      step s = exec i { s with schedule := rest, wireIn := f }) ∧
    (∀ v, s.schedule = .mdio v :: rest → decode .mmfr (leBytes4 s.mmfr) = .ok i →
      step s = exec i { s with schedule := rest, phyIn := v }) ∧
    (s.schedule = .pp :: rest → decode .ppCmd (leBytes4 s.ppCmd) = .ok i →
      footprintApart s = true → step s = exec i { s with schedule := rest, handed := handedAfterPp s }) ∧
    (∀ offset : BitVec 12, s.platform.base.toNat % 0x1000 = 0 →
      s.schedule = .hostRead (s.platform.base + offset.setWidth 32) .w32 :: rest →
      decode .mmio (encodeMmio offset .read) = .ok i → step s = exec i { s with schedule := rest }) ∧
    (∀ (offset : BitVec 12) (d : Word), s.platform.base.toNat % 0x1000 = 0 →
      s.schedule = .hostWrite (s.platform.base + offset.setWidth 32) .w32 d :: rest →
      decode .mmio (encodeMmio offset (.write d)) = .ok i → accessBreach i s = none →
      step s = exec i { s with schedule := rest, handed := handedAfterAccess i s })

/-- Every step takes exactly one turn off the schedule and never changes the platform's parameters; with no turn left
the block waits. -/
def Obligations.StepTakesOneTurn : Prop :=
  ∀ s : State,
    (s.schedule = [] → step s = .next s) ∧
    (∀ t, step s = .next t → t.schedule = s.schedule.tail ∧ t.platform = s.platform)

/-- Every step keeps the invariant. -/
def Obligations.EveryStepKeepsTheInvariant : Prop :=
  ∀ s t : State, s.Inv → step s = .next t → t.Inv

/-- The invariant holds right after reset. -/
def Obligations.ResetStateMeetsTheInvariant : Prop := State.reset.Inv

/-! ## Reset -/

/-- R390, R392, R45: both resets put every register at its reset value and leave memory, the frames on the wire and the
platform alone; an abandoned MDIO write may or may not have reached the PHY. -/
def Obligations.BothResetsGiveTheResetValues : Prop :=
  State.reset.registersAtReset ∧
  ∀ (s : State) (d : Word) (rest : List Turn), d.getLsbD 31 = true →
    ∃ t, exec (.ctrl (.write d)) s = .next t ∧ t.registersAtReset ∧ t.irq = false ∧
      t.mem = s.mem ∧ t.wireTx = s.wireTx ∧ t.platform = s.platform ∧ t.schedule = s.schedule ∧
      (t.phyLog = s.phyLog ∨
        (s.mdioBusy = true ∧ s.mmfr.extractLsb' 28 4 = 0b0101#4 ∧
          t.phyLog = s.phyLog ++ [.write (s.mmfr.extractLsb' 23 5) (s.mmfr.extractLsb' 18 5) (s.mmfr.extractLsb' 0 16)])) ∧
      (s.schedule = .reset :: rest → step s = .next { t with schedule := rest })

/-- R391: after a reset no agent of the block has an enabled step, frames are ignored, and `irq` is low.  That a turn given
to an agent without an enabled step changes nothing is the model's reading (log 2). -/
def Obligations.NothingMovesAfterReset : Prop :=
  ∀ (s : State) (rest : List Turn) (f : List Byte) (v : Half),
    s.registersAtReset →
    s.irq = false ∧ s.quiescent = true ∧
    (s.schedule = .txdma :: rest → step s = .next { s with schedule := rest }) ∧
    (s.schedule = .pp :: rest → step s = .next { s with schedule := rest }) ∧
    (s.schedule = .mdio v :: rest → step s = .next { s with schedule := rest, phyIn := v }) ∧
    (s.schedule = .wire f :: rest → step s = .next { s with schedule := rest, wireIn := f })

/-! ## Registers -/

/-- R140: `CTRL`. -/
def Obligations.ControlRegister : Prop :=
  ∀ (s : State) (d : Word),
    exec (.ctrl .read) s = .next { s with hostData := BitVec.ofNat 32 (s.ctrlEn.toNat + 2 * s.ctrlLoop.toNat) } ∧
    (d.getLsbD 31 = true → exec (.ctrl (.write d)) s = .next (resetBlock s)) ∧
    (d.getLsbD 31 = false → d.getLsbD 0 = true → exec (.ctrl (.write d)) s =
      .next { s with ctrlEn := true, ctrlLoop := d.getLsbD 1 }) ∧
    (d.getLsbD 31 = false → d.getLsbD 0 = false → exec (.ctrl (.write d)) s =
      .next { s with ctrlEn := false, ctrlLoop := d.getLsbD 1, txActive := false, rxActive := false })

/-- R141, R155, R355: `STATUS` and `PP_STATUS` as read, and the interrupt output. -/
def Obligations.StatusRegistersRead : Prop :=
  ∀ (s : State) (d : Word),
    s.irq = decide ((s.eir &&& s.eimr) ≠ 0#5) ∧
    exec (.status .read) s = .next { s with
      hostData := BitVec.ofNat 32 (s.txActive.toNat + 2 * s.rxActive.toNat + 4 * s.mdioBusy.toNat + 8 * s.ppBusy.toNat + 16 * s.halted.toNat +
        32 * (decide ((s.eir &&& s.eimr) ≠ 0#5)).toNat) } ∧
    exec (.ppStatus .read) s = .next { s with
      hostData := BitVec.ofNat 32 (s.ppBusy.toNat + 256 * s.ppResult.code.toNat) } ∧
    exec (.status (.write d)) s = .next s ∧ exec (.ppStatus (.write d)) s = .next s

/-- R142, R143, R144: the event and mask registers; `irq` is a function of the two (R355), so it follows in the same
step. -/
def Obligations.EventRegisters : Prop :=
  ∀ (s : State) (d : Word),
    s.irq = decide ((s.eir &&& s.eimr) ≠ 0#5) ∧
    exec (.eir .read) s = .next { s with hostData := s.eir.setWidth 32 } ∧
    exec (.eimr .read) s = .next { s with hostData := s.eimr.setWidth 32 } ∧
    (∃ e : BitVec 5, exec (.eir (.write d)) s = .next { s with eir := e } ∧
      ∀ k : Nat, e.getLsbD k = (s.eir.getLsbD k && !d.getLsbD k)) ∧
    (∃ e : BitVec 5, exec (.eimr (.write d)) s = .next { s with eimr := e } ∧
      ∀ k : Nat, k < 5 → e.getLsbD k = d.getLsbD k)

/-- R145, R146, R147: the ring bases and the ring pointers.  A base is the data rounded down to a multiple of 8. -/
def Obligations.RingRegisters : Prop :=
  ∀ (s : State) (d : Word),
    exec (.tdsr .read) s = .next { s with hostData := s.tdsr } ∧
    exec (.rdsr .read) s = .next { s with hostData := s.rdsr } ∧
    exec (.tdcur .read) s = .next { s with hostData := s.tdcur } ∧
    exec (.rdcur .read) s = .next { s with hostData := s.rdcur } ∧
    (s.txActive = false → exec (.tdsr (.write d)) s =
      .next { s with tdsr := BitVec.ofNat 32 (d.toNat / 8 * 8), tdcur := BitVec.ofNat 32 (d.toNat / 8 * 8) }) ∧
    (s.txActive = true → exec (.tdsr (.write d)) s = .next s) ∧
    (s.rxActive = false → exec (.rdsr (.write d)) s =
      .next { s with rdsr := BitVec.ofNat 32 (d.toNat / 8 * 8), rdcur := BitVec.ofNat 32 (d.toNat / 8 * 8) }) ∧
    (s.rxActive = true → exec (.rdsr (.write d)) s = .next s) ∧
    exec (.tdcur (.write d)) s = .next s ∧ exec (.rdcur (.write d)) s = .next s

/-- R148, R149: ring activation. -/
def Obligations.ActivationRegisters : Prop :=
  ∀ (s : State) (d : Word),
    exec (.tdar .read) s = .next { s with hostData := 0#32 } ∧
    exec (.rdar .read) s = .next { s with hostData := 0#32 } ∧
    (s.ctrlEn = true → s.halted = false →
      exec (.tdar (.write d)) s = .next { s with txActive := true } ∧
      exec (.rdar (.write d)) s = .next { s with rxActive := true }) ∧
    (s.ctrlEn = false ∨ s.halted = true →
      exec (.tdar (.write d)) s = .next s ∧ exec (.rdar (.write d)) s = .next s)

/-- R150, R151: `RXMAX` and the station address. -/
def Obligations.ReceiveLimitAndStationRegisters : Prop :=
  ∀ (s : State) (d : Word),
    exec (.rxmax .read) s = .next { s with hostData := s.rxmax.setWidth 32 } ∧
    exec (.maclo .read) s = .next { s with hostData := s.maclo } ∧
    exec (.machi .read) s = .next { s with hostData := s.machi.setWidth 32 } ∧
    exec (.rxmax (.write d)) s = .next { s with rxmax := BitVec.ofNat 16 (d.toNat % 0x10000) } ∧
    (s.ppBusy = false → exec (.maclo (.write d)) s = .next { s with maclo := d } ∧
      exec (.machi (.write d)) s = .next { s with machi := BitVec.ofNat 16 (d.toNat % 0x10000) }) ∧
    (s.ppBusy = true → exec (.maclo (.write d)) s = .next s ∧ exec (.machi (.write d)) s = .next s)

/-- R152, R180, R184: `MMFR`. -/
def Obligations.ManagementFrameRegister : Prop :=
  ∀ (s : State) (d : Word),
    exec (.mmfr .read) s = .next { s with hostData := s.mmfr } ∧
    (s.mdioBusy = true → exec (.mmfr (.write d)) s = .next s) ∧
    (s.mdioBusy = false → d.extractLsb' 28 4 = 0b0110#4 ∨ d.extractLsb' 28 4 = 0b0101#4 →
      exec (.mmfr (.write d)) s = .next { s with mmfr := d, mdioBusy := true }) ∧
    (s.mdioBusy = false → d.extractLsb' 28 4 ≠ 0b0110#4 → d.extractLsb' 28 4 ≠ 0b0101#4 →
      exec (.mmfr (.write d)) s = .next { s with mmfr := d })

/-- R154, R156, R157, R158, R220: the command register and the registers the PP locks, read, written, and written while
a command is pending (R38). -/
def Obligations.CommandAndOperandRegisters : Prop :=
  ∀ (s : State) (d : Word),
    (exec (.ppCmd .read) s = .next { s with hostData := s.ppCmd } ∧
      exec (.p0 .read) s = .next { s with hostData := s.p.p0 } ∧
      exec (.p1 .read) s = .next { s with hostData := s.p.p1 } ∧
      exec (.p2 .read) s = .next { s with hostData := s.p.p2 } ∧
      exec (.p3 .read) s = .next { s with hostData := s.p.p3 } ∧
      exec (.p4 .read) s = .next { s with hostData := s.p.p4 } ∧
      exec (.p5 .read) s = .next { s with hostData := s.p.p5 } ∧
      exec (.p6 .read) s = .next { s with hostData := s.p.p6 } ∧
      exec (.p7 .read) s = .next { s with hostData := s.p.p7 } ∧
      exec (.ip4Addr .read) s = .next { s with hostData := s.ip4Addr } ∧
      exec (.ip4Mask .read) s = .next { s with hostData := s.ip4Mask } ∧
      exec (.ip4Gw .read) s = .next { s with hostData := s.ip4Gw } ∧
      exec (.ip4Ttl .read) s = .next { s with hostData := s.ip4Ttl.setWidth 32 }) ∧
    (s.ppBusy = false →
      exec (.ppCmd (.write d)) s = .next { s with ppCmd := d, ppBusy := true } ∧
      exec (.p0 (.write d)) s = .next { s with p := { s.p with p0 := d } } ∧
      exec (.p1 (.write d)) s = .next { s with p := { s.p with p1 := d } } ∧
      exec (.p2 (.write d)) s = .next { s with p := { s.p with p2 := d } } ∧
      exec (.p3 (.write d)) s = .next { s with p := { s.p with p3 := d } } ∧
      exec (.p4 (.write d)) s = .next { s with p := { s.p with p4 := d } } ∧
      exec (.p5 (.write d)) s = .next { s with p := { s.p with p5 := d } } ∧
      exec (.p6 (.write d)) s = .next { s with p := { s.p with p6 := d } } ∧
      exec (.p7 (.write d)) s = .next { s with p := { s.p with p7 := d } } ∧
      exec (.ip4Addr (.write d)) s = .next { s with ip4Addr := d } ∧
      exec (.ip4Mask (.write d)) s = .next { s with ip4Mask := d } ∧
      exec (.ip4Gw (.write d)) s = .next { s with ip4Gw := d } ∧
      exec (.ip4Ttl (.write d)) s = .next { s with ip4Ttl := BitVec.ofNat 8 (d.toNat % 0x100) }) ∧
    (s.ppBusy = true →
      exec (.ppCmd (.write d)) s = .next s ∧ exec (.p0 (.write d)) s = .next s ∧ exec (.p1 (.write d)) s = .next s ∧
      exec (.p2 (.write d)) s = .next s ∧ exec (.p3 (.write d)) s = .next s ∧ exec (.p4 (.write d)) s = .next s ∧
      exec (.p5 (.write d)) s = .next s ∧ exec (.p6 (.write d)) s = .next s ∧ exec (.p7 (.write d)) s = .next s ∧
      exec (.ip4Addr (.write d)) s = .next s ∧ exec (.ip4Mask (.write d)) s = .next s ∧
      exec (.ip4Gw (.write d)) s = .next s ∧ exec (.ip4Ttl (.write d)) s = .next s)

/-- R159, R160: the window on the ARP cache and the port table as the host sees them. -/
def Obligations.TableWindowRegisters : Prop :=
  ∀ (s : State) (d : Word) (e : ArpEntry) (he : e = s.arp[s.arpSel.toNat]'(s.arpSel.isLt)),
    exec (.arpSel .read) s = .next { s with hostData := s.arpSel.setWidth 32 } ∧
    (s.ppBusy = false →
      exec (.arpSel (.write d)) s = .next { s with arpSel := BitVec.ofNat 4 (d.toNat % 0x10) }) ∧
    (s.ppBusy = true → exec (.arpSel (.write d)) s = .next s) ∧
    exec (.arpIp .read) s = .next { s with hostData := e.ip } ∧
    exec (.arpMaclo .read) s = .next { s with hostData := BitVec.ofNat 32 (e.mac.toNat % 2 ^ 32) } ∧
    exec (.arpMachi .read) s = .next { s with
      hostData := BitVec.ofNat 32 (e.mac.toNat / 2 ^ 32 + 0x10000 * (if e.state = .empty then 0 else if e.state = .pending then 1 else 2)) } ∧
    exec (.arpTs .read) s = .next { s with hostData := e.ts } ∧
    exec (.arpIp (.write d)) s = .next s ∧ exec (.arpMaclo (.write d)) s = .next s ∧
    exec (.arpMachi (.write d)) s = .next s ∧ exec (.arpTs (.write d)) s = .next s ∧
    exec (.udpPort0 .read) s = .next { s with hostData := s.udpPort[0].setWidth 32 } ∧
    exec (.udpPort1 .read) s = .next { s with hostData := s.udpPort[1].setWidth 32 } ∧
    exec (.udpPort2 .read) s = .next { s with hostData := s.udpPort[2].setWidth 32 } ∧
    exec (.udpPort3 .read) s = .next { s with hostData := s.udpPort[3].setWidth 32 } ∧
    exec (.udpPort4 .read) s = .next { s with hostData := s.udpPort[4].setWidth 32 } ∧
    exec (.udpPort5 .read) s = .next { s with hostData := s.udpPort[5].setWidth 32 } ∧
    exec (.udpPort6 .read) s = .next { s with hostData := s.udpPort[6].setWidth 32 } ∧
    exec (.udpPort7 .read) s = .next { s with hostData := s.udpPort[7].setWidth 32 } ∧
    exec (.udpPort0 (.write d)) s = .next s ∧ exec (.udpPort1 (.write d)) s = .next s ∧
    exec (.udpPort2 (.write d)) s = .next s ∧ exec (.udpPort3 (.write d)) s = .next s ∧
    exec (.udpPort4 (.write d)) s = .next s ∧ exec (.udpPort5 (.write d)) s = .next s ∧
    exec (.udpPort6 (.write d)) s = .next s ∧ exec (.udpPort7 (.write d)) s = .next s

/-- R153, R161: the counters, read only, and the reserved offsets. -/
def Obligations.CountersAndReservedOffsets : Prop :=
  ∀ (s : State) (d : Word) (o : BitVec 12),
    (exec (.cntTxSent .read) s = .next { s with hostData := s.counters.txSent } ∧
      exec (.cntTxErr .read) s = .next { s with hostData := s.counters.txErr } ∧
      exec (.cntRxStored .read) s = .next { s with hostData := s.counters.rxStored } ∧
      exec (.cntRxNodesc .read) s = .next { s with hostData := s.counters.rxNodesc } ∧
      exec (.cntRxOversize .read) s = .next { s with hostData := s.counters.rxOversize } ∧
      exec (.cntL2ArpAcc .read) s = .next { s with hostData := s.counters.l2ArpAcc } ∧
      exec (.cntL2Ip4Acc .read) s = .next { s with hostData := s.counters.l2Ip4Acc } ∧
      exec (.cntL2ArpDrop .read) s = .next { s with hostData := s.counters.l2ArpDrop } ∧
      exec (.cntL2Ip4Drop .read) s = .next { s with hostData := s.counters.l2Ip4Drop } ∧
      exec (.cntL2OtherDrop .read) s = .next { s with hostData := s.counters.l2OtherDrop } ∧
      exec (.cntArpBad .read) s = .next { s with hostData := s.counters.arpBad } ∧
      exec (.cntIp4Badhdr .read) s = .next { s with hostData := s.counters.ip4Badhdr } ∧
      exec (.cntIp4Badcsum .read) s = .next { s with hostData := s.counters.ip4Badcsum } ∧
      exec (.cntIp4Baddst .read) s = .next { s with hostData := s.counters.ip4Baddst } ∧
      exec (.cntIp4Badproto .read) s = .next { s with hostData := s.counters.ip4Badproto } ∧
      exec (.cntIcmpDrop .read) s = .next { s with hostData := s.counters.icmpDrop } ∧
      exec (.cntUdpBadlen .read) s = .next { s with hostData := s.counters.udpBadlen } ∧
      exec (.cntUdpNoport .read) s = .next { s with hostData := s.counters.udpNoport } ∧
      exec (.reserved o .read) s = .next { s with hostData := 0#32 }) ∧
    (exec (.cntTxSent (.write d)) s = .next s ∧ exec (.cntTxErr (.write d)) s = .next s ∧
      exec (.cntRxStored (.write d)) s = .next s ∧ exec (.cntRxNodesc (.write d)) s = .next s ∧
      exec (.cntRxOversize (.write d)) s = .next s ∧ exec (.cntL2ArpAcc (.write d)) s = .next s ∧
      exec (.cntL2Ip4Acc (.write d)) s = .next s ∧ exec (.cntL2ArpDrop (.write d)) s = .next s ∧
      exec (.cntL2Ip4Drop (.write d)) s = .next s ∧ exec (.cntL2OtherDrop (.write d)) s = .next s ∧
      exec (.cntArpBad (.write d)) s = .next s ∧ exec (.cntIp4Badhdr (.write d)) s = .next s ∧
      exec (.cntIp4Badcsum (.write d)) s = .next s ∧ exec (.cntIp4Baddst (.write d)) s = .next s ∧
      exec (.cntIp4Badproto (.write d)) s = .next s ∧ exec (.cntIcmpDrop (.write d)) s = .next s ∧
      exec (.cntUdpBadlen (.write d)) s = .next s ∧ exec (.cntUdpNoport (.write d)) s = .next s ∧
      exec (.reserved o (.write d)) s = .next s)

/-- R88: no register read changes anything of the block, whatever the register. -/
def Obligations.RegisterReadsHaveNoSideEffect : Prop :=
  ∀ (s : State) (offset : BitVec 12), offset.toNat % 4 = 0 →
    ∃ (i : Instr) (v : Word), decodeMmio offset .read = .ok i ∧ exec i s = .next { s with hostData := v }

/-- R162: a write that its register does not accept is ignored, whatever the register. -/
def Obligations.UnacceptedWritesAreIgnored : Prop :=
  ∀ (s : State) (offset : BitVec 12) (d : Word), offset.toNat % 4 = 0 → writeAccepted offset.toNat s = false →
    ∃ i : Instr, decodeMmio offset (.write d) = .ok i ∧ exec i s = .next s

/-- No register access other than the soft reset touches memory, the wire, the PHY, a counter, the ARP cache, the port
table, the result code or `HALTED`. -/
def Obligations.RegisterAccessFrame : Prop :=
  ∀ (i : Instr) (s : State), formatOf i = .mmio → softReset i = false →
    ∃ t, exec i s = .next t ∧ t.mem = s.mem ∧ t.wireTx = s.wireTx ∧ t.phyLog = s.phyLog ∧ t.counters = s.counters ∧
      t.arp = s.arp ∧ t.udpPort = s.udpPort ∧ t.ppResult = s.ppResult ∧ t.halted = s.halted

/-- R83: the window admits 32-bit host accesses at multiples of 4 and the model refuses every other access to it, byte-list
stores among them.  That an access with one byte in the window counts as an access to it is the model's choice (log 6);
that a write which activates a ring handed over against R400 or R401, or moves one from under a footprint, stops the
run, and what is noted of a write to `TDSR`, `RDSR` or `CTRL`, are logs 13 and 15. -/
def Obligations.WindowAdmitsOnlyAlignedWords : Prop :=
  ∀ (s : State) (rest : List Turn) (addr d : Word) (width : Width) (bytes : List Byte),
    s.platform.base.toNat % 0x1000 = 0 →
    ((∃ i, i < bytes.length ∧ inWindow s.platform (addr.toNat + i) = true) →
      s.schedule = .hostStore addr bytes :: rest → step s = .refused .registerAccess) ∧
    ((∃ i, i < width.bytes ∧ inWindow s.platform (addr.toNat + i) = true) →
    (width = .w32 → addr.toNat % 4 = 0 →
      (s.schedule = .hostRead addr width :: rest →
        ∃ i, decodeMmio ((addr - s.platform.base).extractLsb' 0 12) .read = .ok i ∧
          step s = exec i { s with schedule := rest }) ∧
      (s.schedule = .hostWrite addr width d :: rest →
        ∃ i, decodeMmio ((addr - s.platform.base).extractLsb' 0 12) (.write d) = .ok i ∧
          (accessBreach i s = none → step s = exec i { s with schedule := rest, handed := handedAfterAccess i s }) ∧
          (∀ f, accessBreach i s = some f → step s = .fault f))) ∧
    (width ≠ .w32 ∨ addr.toNat % 4 ≠ 0 →
      (s.schedule = .hostRead addr width :: rest → step s = .refused .registerAccess) ∧
      (s.schedule = .hostWrite addr width d :: rest → step s = .refused .registerAccess)))

/-! ## Transmit ring -/

/-- R191, R194: a ready descriptor with a good length sends its buffer to the wire and is written back; the frame. -/
def Obligations.TxdSendsTheFrame : Prop :=
  ∀ (s : State) (c : DescCtl) (buf : Word), memoryWf s.mem = true → s.txActive = true → s.ctrlLoop = false →
    14 ≤ c.len.toNat → c.len.toNat ≤ 1514 → admitted s.platform buf c.len.toNat = true →
    ∃ m, exec (.txd c buf) s = .next
        { s with
          mem := m
          wireTx := s.wireTx ++ [loadBytes s.mem buf c.len.toNat]
          counters := s.counters.bump .txSent
          eir := if c.ioc then s.eir ||| 0b00010#5 else s.eir
          tdcur := if c.wrap then s.tdsr else s.tdcur + 8#32 } ∧
      load32 m s.tdcur = descWord false { c with done := true, err := false } ∧
      sameOutside s.mem m s.tdcur 4 ∧ memoryWf m = true

/-- R192: a ready descriptor with a length out of range completes with `ERR`; nothing is sent; the frame. -/
def Obligations.TxdRejectsBadLengths : Prop :=
  ∀ (s : State) (c : DescCtl) (buf : Word), memoryWf s.mem = true → s.txActive = true →
    c.len.toNat < 14 ∨ 1514 < c.len.toNat →
    ∃ m, exec (.txd c buf) s = .next
        { s with
          mem := m
          counters := s.counters.bump .txErr
          eir := if c.ioc then s.eir ||| 0b00010#5 else s.eir
          tdcur := if c.wrap then s.tdsr else s.tdcur + 8#32 } ∧
      load32 m s.tdcur = descWord false { c with done := true, err := true } ∧
      sameOutside s.mem m s.tdcur 4 ∧ memoryWf m = true

/-- R193, R209: a descriptor that is not ready stops its ring and is not touched. -/
def Obligations.NotReadyDescriptorsStopTheRing : Prop :=
  ∀ (s : State) (c : DescCtl),
    exec (.txdStop c) s = .next { s with txActive := false } ∧
    (s.ctrlEn = true → s.halted = false → s.ctrlLoop = false → s.rxActive = true →
      s.wireIn.length ≤ s.rxmax.toNat →
      exec (.rxdStop c) s = .next { s with rxActive := false, counters := s.counters.bump .rxNodesc })

/-- R195, R211, R353: an access that is not admitted makes the step the bus-error action and nothing else, for each
access of the two engines. -/
def Obligations.BusErrorsHaltTheEngines : Prop :=
  ∀ (s : State) (rest : List Turn) (c : DescCtl) (buf : Word) (f : List Byte),
    (s.txActive = true → 14 ≤ c.len.toNat → c.len.toNat ≤ 1514 → admitted s.platform buf c.len.toNat = false →
      exec (.txd c buf) s = .next s.busErrored) ∧
    (s.ctrlEn = true → s.halted = false → s.ctrlLoop = false → s.rxActive = true →
      s.wireIn.length ≤ s.rxmax.toNat → admitted s.platform buf s.wireIn.length = false →
      exec (.rxd c buf) s = .next s.busErrored) ∧
    (s.schedule = .txdma :: rest → s.txActive = true →
      admitted s.platform s.tdcur 4 = false ∨
        (ownBit (load32 s.mem s.tdcur) = true ∧ admitted s.platform (s.tdcur + 4#32) 4 = false) →
      step s = .next { s.busErrored with schedule := rest }) ∧
    (s.schedule = .wire f :: rest → s.ctrlEn = true → s.halted = false → s.ctrlLoop = false → s.rxActive = true →
      f.length ≤ s.rxmax.toNat →
      admitted s.platform s.rdcur 4 = false ∨
        (ownBit (load32 s.mem s.rdcur) = true ∧ admitted s.platform (s.rdcur + 4#32) 4 = false) →
      step s = .next { s.busErrored with schedule := rest, wireIn := f })

/-- R196: in loopback mode the frame goes to the receive path in the same step, nothing goes to the wire, and the Tx
descriptor completes whatever the receive side did. -/
def Obligations.LoopbackReceivesWhatItSends : Prop :=
  ∀ (s : State) (c : DescCtl) (buf : Word), memoryWf s.mem = true → s.txActive = true → s.ctrlLoop = true →
    14 ≤ c.len.toNat → c.len.toNat ≤ 1514 → admitted s.platform buf c.len.toNat = true →
    ∀ w0 rbuf : Word, w0 = load32 s.mem s.rdcur → rbuf = load32 s.mem (s.rdcur + 4#32) →
    (s.rxActive = false → ∃ m, exec (.txd c buf) s = .next
        { s with
          mem := m
          counters := (s.counters.bump .rxNodesc).bump .txSent
          eir := if c.ioc then s.eir ||| 0b00010#5 else s.eir
          tdcur := if c.wrap then s.tdsr else s.tdcur + 8#32 } ∧
      load32 m s.tdcur = descWord false { c with done := true, err := false } ∧ sameOutside s.mem m s.tdcur 4) ∧
    (s.rxActive = true → s.rxmax.toNat < c.len.toNat → ∃ m, exec (.txd c buf) s = .next
        { s with
          mem := m
          counters := (s.counters.bump .rxOversize).bump .txSent
          eir := if c.ioc then s.eir ||| 0b00010#5 else s.eir
          tdcur := if c.wrap then s.tdsr else s.tdcur + 8#32 } ∧
      load32 m s.tdcur = descWord false { c with done := true, err := false } ∧ sameOutside s.mem m s.tdcur 4) ∧
    (s.rxActive = true → c.len.toNat ≤ s.rxmax.toNat → admitted s.platform s.rdcur 4 = true → ownBit w0 = false →
      ∃ m, exec (.txd c buf) s = .next
        { s with
          mem := m
          rxActive := false
          counters := (s.counters.bump .rxNodesc).bump .txSent
          eir := if c.ioc then s.eir ||| 0b00010#5 else s.eir
          tdcur := if c.wrap then s.tdsr else s.tdcur + 8#32 } ∧
      load32 m s.tdcur = descWord false { c with done := true, err := false } ∧ sameOutside s.mem m s.tdcur 4) ∧
    (s.rxActive = true → c.len.toNat ≤ s.rxmax.toNat → admitted s.platform s.rdcur 4 = true → ownBit w0 = true →
      admitted s.platform (s.rdcur + 4#32) 4 = true → admitted s.platform rbuf c.len.toNat = true →
      apart s.tdcur 4 s.rdcur 4 → apart s.tdcur 4 rbuf c.len.toNat → apart s.rdcur 4 rbuf c.len.toNat →
      ∃ m, exec (.txd c buf) s = .next
        { s with
          mem := m
          counters := (s.counters.bump .rxStored).bump .txSent
          eir := (if w0.getLsbD 29 then s.eir ||| 0b00100#5 else s.eir) ||| (if c.ioc then 0b00010#5 else 0#5)
          tdcur := if c.wrap then s.tdsr else s.tdcur + 8#32
          rdcur := if w0.getLsbD 30 then s.rdsr else s.rdcur + 8#32 } ∧
      load32 m s.tdcur = descWord false { c with done := true, err := false } ∧
      load32 m s.rdcur = descWord false { descCtlOf w0 with done := true, err := false, len := c.len } ∧
      loadBytes m rbuf c.len.toNat = loadBytes s.mem buf c.len.toNat ∧
      (∀ x : Nat, (∀ i, i < 4 → x ≠ (s.tdcur + BitVec.ofNat 32 i).toNat) →
        (∀ i, i < 4 → x ≠ (s.rdcur + BitVec.ofNat 32 i).toNat) →
        (∀ i, i < c.len.toNat → x ≠ (rbuf + BitVec.ofNat 32 i).toNat) → loadByte m x = loadByte s.mem x)) ∧
    (s.rxActive = true → c.len.toNat ≤ s.rxmax.toNat →
      admitted s.platform s.rdcur 4 = false ∨
        (ownBit w0 = true ∧ (admitted s.platform (s.rdcur + 4#32) 4 = false ∨
          admitted s.platform rbuf c.len.toNat = false)) →
      exec (.txd c buf) s = .next s.busErrored)

/-! ## Receive ring -/

/-- R205, R206, R207: what happens to an offered frame before any descriptor is read. -/
def Obligations.OfferedFramesAreScreened : Prop :=
  ∀ (s : State) (rest : List Turn) (f : List Byte), s.schedule = .wire f :: rest →
    (s.ctrlEn = false ∨ s.halted = true ∨ s.ctrlLoop = true →
      step s = .next { s with schedule := rest, wireIn := f }) ∧
    (s.ctrlEn = true → s.halted = false → s.ctrlLoop = false → s.rxActive = false →
      step s = .next { s with schedule := rest, wireIn := f, counters := s.counters.bump .rxNodesc }) ∧
    (s.ctrlEn = true → s.halted = false → s.ctrlLoop = false → s.rxActive = true → s.rxmax.toNat < f.length →
      step s = .next { s with schedule := rest, wireIn := f, counters := s.counters.bump .rxOversize })

/-- R208, R210: a frame is stored through a ready descriptor, which is written back; the frame. -/
def Obligations.RxdStoresTheFrame : Prop :=
  ∀ (s : State) (c : DescCtl) (buf : Word), memoryWf s.mem = true → s.ctrlEn = true → s.halted = false →
    s.ctrlLoop = false → s.rxActive = true → s.wireIn.length ≤ s.rxmax.toNat →
    admitted s.platform buf s.wireIn.length = true →
    ∃ m, exec (.rxd c buf) s = .next
        { s with
          mem := m
          counters := s.counters.bump .rxStored
          eir := if c.ioc then s.eir ||| 0b00100#5 else s.eir
          rdcur := if c.wrap then s.rdsr else s.rdcur + 8#32 } ∧
      load32 m s.rdcur =
        descWord false { c with done := true, err := false, len := BitVec.ofNat 16 s.wireIn.length } ∧
      (apart s.rdcur 4 buf s.wireIn.length → loadBytes m buf s.wireIn.length = s.wireIn) ∧
      (∀ x : Nat, (∀ i, i < 4 → x ≠ (s.rdcur + BitVec.ofNat 32 i).toNat) →
        (∀ i, i < s.wireIn.length → x ≠ (buf + BitVec.ofNat 32 i).toNat) → loadByte m x = loadByte s.mem x) ∧
      memoryWf m = true

/-! ## MDIO -/

/-- R181, R182, R183, R185: the completions of management frames.  That `phyLog` records a read is log 11; that a word
which starts nothing is an operation of its own, which stores it, is log 17. -/
def Obligations.ManagementFramesComplete : Prop :=
  ∀ (s : State) (pa ra : BitVec 5) (ta : BitVec 2) (data : Half) (word : Word),
    (s.mdioBusy = true →
      exec (.mdioRead pa ra ta data) s = .next
        { s with
          mmfr := BitVec.ofNat 32 (s.mmfr.toNat / 0x10000 * 0x10000 + s.phyIn.toNat)
          phyLog := s.phyLog ++ [.read pa ra s.phyIn]
          mdioBusy := false
          eir := s.eir ||| 0b00001#5 } ∧
      exec (.mdioWrite pa ra ta data) s = .next
        { s with
          phyLog := s.phyLog ++ [.write pa ra data]
          mdioBusy := false
          eir := s.eir ||| 0b00001#5 }) ∧
    (s.mdioBusy = false → exec (.mmfrNoOperation word) s = .next { s with mmfr := word })

/-! ## Packet processor: completion and errors -/

/-- R221: every command, legal or not, completes in one step, clears `PP_BUSY`, sets `PPD`, and leaves the engines, the
wire and the host-only registers alone. -/
def Obligations.EveryCommandCompletes : Prop :=
  ∀ (i : Instr) (s : State), formatOf i = .ppCmd → s.ppBusy = true →
    ∃ t, exec i s = .next t ∧ t.ppBusy = false ∧ t.eir = s.eir ||| 0b01000#5 ∧ t.eimr = s.eimr ∧
      t.ctrlEn = s.ctrlEn ∧ t.ctrlLoop = s.ctrlLoop ∧ t.txActive = s.txActive ∧ t.rxActive = s.rxActive ∧
      t.mdioBusy = s.mdioBusy ∧ t.halted = s.halted ∧ t.tdsr = s.tdsr ∧ t.rdsr = s.rdsr ∧ t.tdcur = s.tdcur ∧
      t.rdcur = s.rdcur ∧ t.mmfr = s.mmfr ∧ t.wireTx = s.wireTx ∧ t.phyLog = s.phyLog ∧ t.ppCmd = s.ppCmd ∧
      t.ip4Addr = s.ip4Addr ∧ t.ip4Mask = s.ip4Mask ∧ t.ip4Gw = s.ip4Gw ∧ t.ip4Ttl = s.ip4Ttl ∧
      t.maclo = s.maclo ∧ t.machi = s.machi ∧ t.arpSel = s.arpSel ∧ t.rxmax = s.rxmax

/-- R221, R222, R351: a command that ends with an error code (0x01 to 0x06) has no effect but the code, `PP_BUSY` and
`PPD`. -/
def Obligations.CommandErrorsHaveNoOtherEffect : Prop :=
  ∀ (i : Instr) (s t : State), formatOf i = .ppCmd → s.ppBusy = true → exec i s = .next t →
    1 ≤ t.ppResult.code.toNat → t.ppResult.code.toNat ≤ 6 → t = s.completed t.ppResult

/-! ## Packet processor: checksum -/

/-- R233, R225: the one's-complement sum does not depend on grouping: the folded sum of a first part of even length
serves as the seed of the rest. -/
def Obligations.ChecksumsChain : Prop :=
  ∀ (d e : List Byte) (seed : Half), d.length % 2 = 0 → ocsum (d ++ e) seed = ocsum e (ocsum d seed)

/-- R15, R229: with the checksum of a header put in its (even-placed) checksum field, the checksum over the whole is
zero. -/
def Obligations.ChecksummedHeadersVerify : Prop :=
  ∀ d e : List Byte, d.length % 2 = 0 →
    cksumOf (d ++ beBytes2 (cksumOf (d ++ [0#8, 0#8] ++ e) 0#16) ++ e) 0#16 = 0#16

/-- R224, R225: `NOP` and `CKSUM`. -/
def Obligations.NopAndCksumCommands : Prop :=
  ∀ s : State, s.ppBusy = true →
    exec .nop s = .next (s.completed .ok) ∧
    (0xFFFF < s.p.p1.toNat ∨ 0x10000 ≤ s.p.p2.toNat → exec .cksum s = .next (s.completed .errBadArg)) ∧
    (s.p.p1.toNat ≤ 0xFFFF → s.p.p2.toNat < 0x10000 → admitted s.platform s.p.p0 s.p.p1.toNat = false →
      exec .cksum s = .next (s.completed .errBus)) ∧
    (s.p.p1.toNat ≤ 0xFFFF → s.p.p2.toNat < 0x10000 → admitted s.platform s.p.p0 s.p.p1.toNat = true →
      ∀ sum : Half, sum = ocsum (loadBytes s.mem s.p.p0 s.p.p1.toNat) (s.p.p2.extractLsb' 0 16) →
      exec .cksum s = .next ({ s with
        p := { s.p with p6 := sum.setWidth 32, p7 := BitVec.ofNat 32 (0xFFFF - sum.toNat) } }.completed .ok))

/-! ## Packet processor: header construction.  Each statement gives the bytes read back, and the frame. -/

/-- R226: `ETH_HDR`. -/
def Obligations.EthernetHeaderIsBuilt : Prop :=
  ∀ s : State, memoryWf s.mem = true → s.ppBusy = true →
    (0x10000 ≤ s.p.p2.toNat ∨ 0x10000 ≤ s.p.p3.toNat → exec .ethHdr s = .next (s.completed .errBadArg)) ∧
    (s.p.p2.toNat < 0x10000 → s.p.p3.toNat < 0x10000 → admitted s.platform s.p.p0 14 = false →
      exec .ethHdr s = .next (s.completed .errBus)) ∧
    (s.p.p2.toNat < 0x10000 → s.p.p3.toNat < 0x10000 → admitted s.platform s.p.p0 14 = true →
      ∃ m, exec .ethHdr s = .next ({ s with mem := m, p := { s.p with p7 := 14#32 } }.completed .ok) ∧
        loadBytes m s.p.p0 14 =
          beBytes2 (s.p.p2.extractLsb' 0 16) ++ beBytes4 s.p.p1 ++ beBytes2 s.machi ++ beBytes4 s.maclo ++
            beBytes2 (s.p.p3.extractLsb' 0 16) ∧
        sameOutside s.mem m s.p.p0 14 ∧ memoryWf m = true)

/-- R227, R228: `ARP_REQ` and `ARP_REPLY`. -/
def Obligations.ArpFramesAreBuilt : Prop :=
  ∀ s : State, memoryWf s.mem = true → s.ppBusy = true →
    (admitted s.platform s.p.p0 42 = false → exec .arpReq s = .next (s.completed .errBus)) ∧
    (admitted s.platform s.p.p0 42 = true →
      ∃ m, exec .arpReq s = .next ({ s with mem := m, p := { s.p with p7 := 42#32 } }.completed .ok) ∧
        loadBytes m s.p.p0 42 =
          [0xFF#8, 0xFF#8, 0xFF#8, 0xFF#8, 0xFF#8, 0xFF#8] ++ beBytes2 s.machi ++ beBytes4 s.maclo ++
            [0x08#8, 0x06#8, 0#8, 1#8, 0x08#8, 0#8, 6#8, 4#8, 0#8, 1#8] ++ beBytes2 s.machi ++ beBytes4 s.maclo ++
            beBytes4 s.ip4Addr ++ [0#8, 0#8, 0#8, 0#8, 0#8, 0#8] ++ beBytes4 s.p.p1 ∧
        sameOutside s.mem m s.p.p0 42 ∧ memoryWf m = true) ∧
    (0x10000 ≤ s.p.p3.toNat → exec .arpReply s = .next (s.completed .errBadArg)) ∧
    (s.p.p3.toNat < 0x10000 → admitted s.platform s.p.p0 42 = false →
      exec .arpReply s = .next (s.completed .errBus)) ∧
    (s.p.p3.toNat < 0x10000 → admitted s.platform s.p.p0 42 = true →
      ∃ m, exec .arpReply s = .next ({ s with mem := m, p := { s.p with p7 := 42#32 } }.completed .ok) ∧
        loadBytes m s.p.p0 42 =
          beBytes2 (s.p.p3.extractLsb' 0 16) ++ beBytes4 s.p.p2 ++ beBytes2 s.machi ++ beBytes4 s.maclo ++
            [0x08#8, 0x06#8, 0#8, 1#8, 0x08#8, 0#8, 6#8, 4#8, 0#8, 2#8] ++ beBytes2 s.machi ++ beBytes4 s.maclo ++
            beBytes4 s.ip4Addr ++ beBytes2 (s.p.p3.extractLsb' 0 16) ++ beBytes4 s.p.p2 ++ beBytes4 s.p.p1 ∧
        sameOutside s.mem m s.p.p0 42 ∧ memoryWf m = true)

/-- R229: `IP4_HDR`; the checksum of the built header verifies to zero. -/
def Obligations.Ip4HeaderIsBuilt : Prop :=
  ∀ s : State, memoryWf s.mem = true → s.ppBusy = true →
    (0x100 ≤ s.p.p2.toNat ∨ 1480 < s.p.p3.toNat → exec .ip4Hdr s = .next (s.completed .errBadArg)) ∧
    (s.p.p2.toNat < 0x100 → s.p.p3.toNat ≤ 1480 → admitted s.platform (s.p.p0 + 14#32) 20 = false →
      exec .ip4Hdr s = .next (s.completed .errBus)) ∧
    (s.p.p2.toNat < 0x100 → s.p.p3.toNat ≤ 1480 → admitted s.platform (s.p.p0 + 14#32) 20 = true →
      ∀ first last : List Byte,
        first = [0x45#8, 0#8] ++ beBytes2 (BitVec.ofNat 16 (20 + s.p.p3.toNat)) ++
          [0#8, 0#8, 0#8, 0#8, s.ip4Ttl, s.p.p2.extractLsb' 0 8] →
        last = beBytes4 s.ip4Addr ++ beBytes4 s.p.p1 →
      ∃ m, exec .ip4Hdr s = .next ({ s with
          mem := m
          p := { s.p with
            p6 := BitVec.ofNat 32 (20 + s.p.p3.toNat)
            p7 := BitVec.ofNat 32 (34 + s.p.p3.toNat) } }.completed .ok) ∧
        loadBytes m (s.p.p0 + 14#32) 20 = first ++ beBytes2 (cksumOf (first ++ [0#8, 0#8] ++ last) 0#16) ++ last ∧
        cksumOf (loadBytes m (s.p.p0 + 14#32) 20) 0#16 = 0#16 ∧
        sameOutside s.mem m (s.p.p0 + 14#32) 20 ∧ memoryWf m = true)

/-- R230: `ICMP_ECHO_REQ`; the checksum covers header and data. -/
def Obligations.EchoRequestIsBuilt : Prop :=
  ∀ s : State, memoryWf s.mem = true → s.ppBusy = true →
    (0x10000 ≤ s.p.p1.toNat ∨ 0x10000 ≤ s.p.p2.toNat ∨ 1472 < s.p.p3.toNat →
      exec .icmpEchoReq s = .next (s.completed .errBadArg)) ∧
    (s.p.p1.toNat < 0x10000 → s.p.p2.toNat < 0x10000 → s.p.p3.toNat ≤ 1472 →
      admitted s.platform (s.p.p0 + 34#32) (8 + s.p.p3.toNat) = false →
      exec .icmpEchoReq s = .next (s.completed .errBus)) ∧
    (s.p.p1.toNat < 0x10000 → s.p.p2.toNat < 0x10000 → s.p.p3.toNat ≤ 1472 →
      admitted s.platform (s.p.p0 + 34#32) (8 + s.p.p3.toNat) = true →
      ∀ ids data : List Byte, ids = beBytes2 (s.p.p1.extractLsb' 0 16) ++ beBytes2 (s.p.p2.extractLsb' 0 16) →
        data = loadBytes s.mem (s.p.p0 + 42#32) s.p.p3.toNat →
      ∃ m, exec .icmpEchoReq s = .next ({ s with
          mem := m, p := { s.p with p7 := BitVec.ofNat 32 (8 + s.p.p3.toNat) } }.completed .ok) ∧
        loadBytes m (s.p.p0 + 34#32) 8 =
          [8#8, 0#8] ++ beBytes2 (cksumOf ([8#8, 0#8, 0#8, 0#8] ++ ids ++ data) 0#16) ++ ids ∧
        cksumOf (loadBytes m (s.p.p0 + 34#32) (8 + s.p.p3.toNat)) 0#16 = 0#16 ∧
        sameOutside s.mem m (s.p.p0 + 34#32) 8 ∧ memoryWf m = true)

/-- R231: `ICMP_ECHO_REPLY`, on a frame that is an echo request and on one that is not. -/
def Obligations.EchoReplyIsBuiltInPlace : Prop :=
  ∀ (s : State) (f : Word) (len totlen : Nat) (isRequest : Bool), memoryWf s.mem = true → s.ppBusy = true →
    f = s.p.p0 → len = s.p.p1.toNat → totlen = (loadBe16 s.mem (f + 16#32)).toNat →
    isRequest = decide (loadBe16 s.mem (f + 12#32) = 0x0800#16 ∧ load8 s.mem (f + 14#32) = 0x45#8 ∧
      load8 s.mem (f + 23#32) = 1#8 ∧ 28 ≤ totlen ∧ totlen ≤ len - 14 ∧ load8 s.mem (f + 34#32) = 8#8) →
    (len < 42 ∨ 1514 < len → exec .icmpEchoReply s = .next (s.completed .errBadArg)) ∧
    (42 ≤ len → len ≤ 1514 → admitted s.platform f len = false →
      exec .icmpEchoReply s = .next (s.completed .errBus)) ∧
    (42 ≤ len → len ≤ 1514 → admitted s.platform f len = true → isRequest = false →
      exec .icmpEchoReply s = .next (s.completed .errBadArg)) ∧
    (42 ≤ len → len ≤ 1514 → admitted s.platform f len = true → isRequest = true →
      ∃ m, exec .icmpEchoReply s = .next ({ s with
          mem := m, p := { s.p with p7 := BitVec.ofNat 32 (14 + totlen) } }.completed .ok) ∧
        loadBytes m f 12 = loadBytes s.mem (f + 6#32) 6 ++ beBytes2 s.machi ++ beBytes4 s.maclo ∧
        load8 m (f + 22#32) = s.ip4Ttl ∧
        loadBytes m (f + 26#32) 8 = beBytes4 s.ip4Addr ++ loadBytes s.mem (f + 26#32) 4 ∧
        load8 m (f + 34#32) = 0#8 ∧
        loadBytes m (f + 24#32) 2 = beBytes2 (cksumOf
          (loadBytes m (f + 14#32) 10 ++ [0#8, 0#8] ++ loadBytes m (f + 26#32) 8) 0#16) ∧
        loadBytes m (f + 36#32) 2 = beBytes2 (cksumOf
          (loadBytes m (f + 34#32) 2 ++ [0#8, 0#8] ++ loadBytes m (f + 38#32) (totlen - 24)) 0#16) ∧
        cksumOf (loadBytes m (f + 14#32) 20) 0#16 = 0#16 ∧
        cksumOf (loadBytes m (f + 34#32) (totlen - 20)) 0#16 = 0#16 ∧
        (∀ x : Nat, (∀ k, k < 12 ∨ k = 22 ∨ (24 ≤ k ∧ k ≤ 34) ∨ k = 36 ∨ k = 37 →
          x ≠ (f + BitVec.ofNat 32 k).toNat) → loadByte m x = loadByte s.mem x) ∧
        memoryWf m = true)

/-- R232: `UDP_HDR` in both forms. -/
def Obligations.UdpHeaderIsBuilt : Prop :=
  ∀ (s : State) (csum : Bool) (n foot : Nat), memoryWf s.mem = true → s.ppBusy = true →
    n = s.p.p3.toNat → foot = (if csum then 8 + n else 8) →
    (8 ≤ s.p.p1.toNat ∨ 0x10000 ≤ s.p.p2.toNat ∨ 1472 < n →
      exec (.udpHdr csum) s = .next (s.completed .errBadArg)) ∧
    (∀ k : Fin 8, k.val = s.p.p1.toNat → s.p.p2.toNat < 0x10000 → n ≤ 1472 →
      (s.udpPort[k] = 0#16 → exec (.udpHdr csum) s = .next (s.completed .errUnbound)) ∧
      (s.udpPort[k] ≠ 0#16 → admitted s.platform (s.p.p0 + 34#32) foot = false →
        exec (.udpHdr csum) s = .next (s.completed .errBus)) ∧
      (s.udpPort[k] ≠ 0#16 → admitted s.platform (s.p.p0 + 34#32) foot = true →
        ∀ (fields pseudo : List Byte) (sum : Half),
          fields = beBytes2 s.udpPort[k] ++ beBytes2 (s.p.p2.extractLsb' 0 16) ++ beBytes2 (BitVec.ofNat 16 (8 + n)) →
          pseudo = beBytes4 s.ip4Addr ++ beBytes4 s.p.p4 ++ [0#8, 17#8] ++ beBytes2 (BitVec.ofNat 16 (8 + n)) →
          sum = cksumOf (pseudo ++ fields ++ [0#8, 0#8] ++ loadBytes s.mem (s.p.p0 + 42#32) n) 0#16 →
        ∃ m, exec (.udpHdr csum) s = .next ({ s with
            mem := m, p := { s.p with p7 := BitVec.ofNat 32 (8 + n) } }.completed .ok) ∧
          loadBytes m (s.p.p0 + 34#32) 8 =
            fields ++ (if csum then beBytes2 (if sum = 0#16 then 0xFFFF#16 else sum) else [0#8, 0#8]) ∧
          sameOutside s.mem m (s.p.p0 + 34#32) 8 ∧ memoryWf m = true))

/-! ## Packet processor: classification -/

/-- R260, R261: the operand checks of `RX_CLASSIFY` and the drops of its Layer-2 stage. -/
def Obligations.ClassifyLayer2Drops : Prop :=
  ∀ (s : State) (len : Nat) (et : Half), s.ppBusy = true → len = s.p.p1.toNat → et = loadBe16 s.mem (s.p.p0 + 12#32) →
    (0xFFFF < len → exec .rxClassify s = .next (s.completed .errBadArg)) ∧
    (len ≤ 0xFFFF → admitted s.platform s.p.p0 len = false → exec .rxClassify s = .next (s.completed .errBus)) ∧
    (admitted s.platform s.p.p0 len = true → len < 14 →
      exec .rxClassify s = .next ((count .l2OtherDrop s).completed .dropL2Runt)) ∧
    (admitted s.platform s.p.p0 len = true → 14 ≤ len → len < 42 → et = 0x0806#16 →
      exec .rxClassify s = .next ((count .l2ArpDrop s).completed .dropL2ArpShort)) ∧
    (admitted s.platform s.p.p0 len = true → 14 ≤ len → len < 34 → et = 0x0800#16 →
      exec .rxClassify s = .next ((count .l2Ip4Drop s).completed .dropL2Ip4Short)) ∧
    (admitted s.platform s.p.p0 len = true → 14 ≤ len → len ≤ 0xFFFF → et ≠ 0x0806#16 → et ≠ 0x0800#16 →
      exec .rxClassify s = .next ((count .l2OtherDrop s).completed .dropL2Type))

/-- R262: the ARP stage. -/
def Obligations.ClassifyArp : Prop :=
  ∀ (s : State) (f : Word) (good : Bool) (oper : Half) (sha : Mac) (spa tpa : Word) (l : Learned),
    s.ppBusy = true → f = s.p.p0 → 42 ≤ s.p.p1.toNat → s.p.p1.toNat ≤ 0xFFFF →
    admitted s.platform f s.p.p1.toNat = true → loadBe16 s.mem (f + 12#32) = 0x0806#16 →
    oper = loadBe16 s.mem (f + 20#32) → sha = loadMac s.mem (f + 22#32) → spa = loadBe32 s.mem (f + 28#32) →
    tpa = loadBe32 s.mem (f + 38#32) → l = arpLearn s.arp spa sha s.p.p2 (decide (tpa = s.ip4Addr)) →
    good = decide (loadBe16 s.mem (f + 14#32) = 1#16 ∧ loadBe16 s.mem (f + 16#32) = 0x0800#16 ∧
      load8 s.mem (f + 18#32) = 6#8 ∧ load8 s.mem (f + 19#32) = 4#8 ∧ (oper = 1#16 ∨ oper = 2#16)) →
    (good = false →
      exec .rxClassify s = .next ((count .arpBad (count .l2ArpAcc s)).completed .dropArpBad)) ∧
    (good = true →
      exec .rxClassify s = .next ({ count .l2ArpAcc s with
        arp := l.cache
        p :=
          { s.p with
            p1 := spa
            p2 := BitVec.ofNat 32 (sha.toNat % 2 ^ 32)
            p3 := BitVec.ofNat 32 (sha.toNat / 2 ^ 32)
            p4 := tpa
            p5 := l.flags
            p6 := l.slot
            p7 := l.evip } }.completed
        (if oper = 2#16 then .rxArpReply else if tpa = s.ip4Addr then .rxArpRequest else .rxArpOther)))

/-- R263: the six tests of the IPv4 stage, in their order, each with its counter and result. -/
def Obligations.ClassifyIp4Drops : Prop :=
  ∀ (s s1 : State) (f : Word) (len totlen : Nat) (dst : Word),
    s.ppBusy = true → f = s.p.p0 → len = s.p.p1.toNat → 34 ≤ len → len ≤ 0xFFFF →
    admitted s.platform f len = true → loadBe16 s.mem (f + 12#32) = 0x0800#16 →
    s1 = count .l2Ip4Acc s → totlen = (loadBe16 s.mem (f + 16#32)).toNat → dst = loadBe32 s.mem (f + 30#32) →
    (load8 s.mem (f + 14#32) ≠ 0x45#8 →
      exec .rxClassify s = .next ((count .ip4Badhdr s1).completed .dropIp4Hdr)) ∧
    (load8 s.mem (f + 14#32) = 0x45#8 → cksumOf (loadBytes s.mem (f + 14#32) 20) 0#16 ≠ 0#16 →
      exec .rxClassify s = .next ((count .ip4Badcsum s1).completed .dropIp4Csum)) ∧
    (load8 s.mem (f + 14#32) = 0x45#8 → cksumOf (loadBytes s.mem (f + 14#32) 20) 0#16 = 0#16 →
      (totlen < 20 ∨ len - 14 < totlen ∨ (loadBe16 s.mem (f + 20#32)).toNat % 0x4000 ≠ 0 →
        exec .rxClassify s = .next ((count .ip4Badhdr s1).completed .dropIp4Hdr)) ∧
      (20 ≤ totlen → totlen ≤ len - 14 → (loadBe16 s.mem (f + 20#32)).toNat % 0x4000 = 0 →
        (dst ≠ s.ip4Addr → dst ≠ ((s.ip4Addr &&& s.ip4Mask) ||| ~~~s.ip4Mask) →
          exec .rxClassify s = .next ((count .ip4Baddst s1).completed .dropIp4Dst)) ∧
        (dst = s.ip4Addr ∨ dst = ((s.ip4Addr &&& s.ip4Mask) ||| ~~~s.ip4Mask) →
          load8 s.mem (f + 23#32) ≠ 1#8 → load8 s.mem (f + 23#32) ≠ 17#8 →
          exec .rxClassify s = .next ((count .ip4Badproto s1).completed .dropIp4Proto))))

/-- R264, R265, R300: the ICMP and UDP stages, for a packet the IPv4 stage accepts. -/
def Obligations.ClassifyIcmpAndUdp : Prop :=
  ∀ (s s1 : State) (f : Word) (len totlen l4len : Nat) (src dst : Word) (dport : Half) (ulen : Nat),
    s.ppBusy = true → f = s.p.p0 → len = s.p.p1.toNat → 34 ≤ len → len ≤ 0xFFFF →
    admitted s.platform f len = true → loadBe16 s.mem (f + 12#32) = 0x0800#16 →
    s1 = count .l2Ip4Acc s → totlen = (loadBe16 s.mem (f + 16#32)).toNat → src = loadBe32 s.mem (f + 26#32) →
    dst = loadBe32 s.mem (f + 30#32) → dport = loadBe16 s.mem (f + 36#32) →
    ulen = (loadBe16 s.mem (f + 38#32)).toNat → l4len = totlen - 20 →
    load8 s.mem (f + 14#32) = 0x45#8 → cksumOf (loadBytes s.mem (f + 14#32) 20) 0#16 = 0#16 → 20 ≤ totlen →
    totlen ≤ len - 14 → (loadBe16 s.mem (f + 20#32)).toNat % 0x4000 = 0 →
    dst = s.ip4Addr ∨ dst = ((s.ip4Addr &&& s.ip4Mask) ||| ~~~s.ip4Mask) →
    (load8 s.mem (f + 23#32) = 1#8 →
      (l4len < 8 ∨ load8 s.mem (f + 35#32) ≠ 0#8 ∨
          (load8 s.mem (f + 34#32) ≠ 0#8 ∧ load8 s.mem (f + 34#32) ≠ 8#8) →
        exec .rxClassify s = .next ((count .icmpDrop s1).completed .dropIcmp)) ∧
      (8 ≤ l4len → load8 s.mem (f + 35#32) = 0#8 →
        load8 s.mem (f + 34#32) = 0#8 ∨ load8 s.mem (f + 34#32) = 8#8 →
        exec .rxClassify s = .next ({ s1 with
          p :=
            { s.p with
              p1 := src
              p2 := (loadBe16 s.mem (f + 38#32)).setWidth 32
              p3 := (loadBe16 s.mem (f + 40#32)).setWidth 32
              p4 := BitVec.ofNat 32 l4len
              p5 := dst } }.completed
          (if load8 s.mem (f + 34#32) = 8#8 then .rxIcmpEchoRequest else .rxIcmpEchoReply)))) ∧
    (load8 s.mem (f + 23#32) = 17#8 →
      (l4len < 8 ∨ ulen < 8 ∨ l4len < ulen →
        exec .rxClassify s = .next ((count .udpBadlen s1).completed .dropUdpLen)) ∧
      (8 ≤ l4len → 8 ≤ ulen → ulen ≤ l4len → dport = 0#16 ∨ (∀ k : Fin 8, s.udpPort[k] ≠ dport) →
        exec .rxClassify s = .next ((count .udpNoport s1).completed .dropUdpPort)) ∧
      (∀ k : Fin 8, 8 ≤ l4len → 8 ≤ ulen → ulen ≤ l4len → dport ≠ 0#16 → s.udpPort[k] = dport →
        (∀ j : Fin 8, s.udpPort[j] = dport → j = k) →
        exec .rxClassify s = .next ({ s1 with
          p :=
            { s.p with
              p1 := src
              p2 := (loadBe16 s.mem (f + 34#32)).setWidth 32
              p3 := BitVec.ofNat 32 k.val
              p4 := f + 42#32
              p5 := BitVec.ofNat 32 (ulen - 8)
              p6 := dst
              p7 := dport.setWidth 32 } }.completed .rxUdp)))

/-- R266: what `RX_CLASSIFY` leaves alone, and how its counters move. -/
def Obligations.ClassifyFrame : Prop :=
  ∀ s t : State, s.ppBusy = true → exec .rxClassify s = .next t →
    t.mem = s.mem ∧ t.udpPort = s.udpPort ∧ t.p.p0 = s.p.p0 ∧
    (0x30 ≤ t.ppResult.code.toNat ∨ t.ppResult.code.toNat ≤ 6 → t.p = s.p) ∧
    (t.ppResult ≠ .rxArpRequest → t.ppResult ≠ .rxArpReply → t.ppResult ≠ .rxArpOther → t.arp = s.arp) ∧
    (t.ppResult.code.toNat ≤ 6 → t.counters = s.counters) ∧
    (6 < t.ppResult.code.toNat → ∃ n, layer2Counter n = true ∧
      (t.counters = s.counters.bump n ∨
        ∃ k, dropCounter k = true ∧ t.counters = (s.counters.bump n).bump k))

/-! ## Packet processor: tables -/

/-- R297: the next-hop choice. -/
def Obligations.NextHopIsChosen : Prop :=
  ∀ s : State, s.ppBusy = true →
    (s.p.p0 &&& s.ip4Mask = s.ip4Addr &&& s.ip4Mask →
      exec .ip4Nexthop s = .next ({ s with p := { s.p with p6 := 0#32, p7 := s.p.p0 } }.completed .ok)) ∧
    (s.p.p0 &&& s.ip4Mask ≠ s.ip4Addr &&& s.ip4Mask → s.ip4Gw ≠ 0#32 →
      exec .ip4Nexthop s = .next ({ s with p := { s.p with p6 := 1#32, p7 := s.ip4Gw } }.completed .ok)) ∧
    (s.p.p0 &&& s.ip4Mask ≠ s.ip4Addr &&& s.ip4Mask → s.ip4Gw = 0#32 →
      exec .ip4Nexthop s = .next (s.completed .errNoRoute))

/-- R291, R293: `ARP_RESOLVE` on a resolved entry, on a pending one, and on a miss with an `EMPTY` entry left.  The
premise is the uniqueness of R296a. -/
def Obligations.ArpResolveLooksUp : Prop :=
  ∀ s : State, s.Inv → s.ppBusy = true → ∀ i : Fin 16,
    (s.arp[i].state = .resolved → s.arp[i].ip = s.p.p0 →
      exec .arpResolve s = .next ({ s with
        arp := s.arp.set i { s.arp[i] with ts := s.p.p1 }
        p :=
          { s.p with
            p1 := BitVec.ofNat 32 (s.arp[i].mac.toNat % 2 ^ 32)
            p2 := BitVec.ofNat 32 (s.arp[i].mac.toNat / 2 ^ 32)
            p5 := 0#32
            p6 := BitVec.ofNat 32 i.val
            p7 := 0#32 } }.completed .arpHit)) ∧
    (s.arp[i].state = .pending → s.arp[i].ip = s.p.p0 →
      exec .arpResolve s = .next ({ s with
        p := { s.p with p5 := 0#32, p6 := BitVec.ofNat 32 i.val, p7 := 0#32 } }.completed .arpPending)) ∧
    ((∀ j : Fin 16, s.arp[j].state ≠ .empty → s.arp[j].ip ≠ s.p.p0) → s.arp[i].state = .empty →
      (∀ j : Fin 16, j.val < i.val → s.arp[j].state ≠ .empty) →
      exec .arpResolve s = .next ({ s with
        arp := s.arp.set i ⟨.pending, s.p.p0, 0#48, s.p.p1⟩
        p := { s.p with p5 := 2#32, p6 := BitVec.ofNat 32 i.val, p7 := 0#32 } }.completed .arpNew))

/-- R292, R293: a miss in a full cache evicts the entry with the smallest timestamp, the lowest index on a tie. -/
def Obligations.ArpResolveEvictsTheOldest : Prop :=
  ∀ s : State, s.ppBusy = true → (∀ j : Fin 16, s.arp[j].state ≠ .empty ∧ s.arp[j].ip ≠ s.p.p0) →
    ∃ i : Fin 16,
      (∀ j : Fin 16, s.arp[i].ts.toNat ≤ s.arp[j].ts.toNat) ∧
      (∀ j : Fin 16, j.val < i.val → s.arp[i].ts.toNat < s.arp[j].ts.toNat) ∧
      exec .arpResolve s = .next ({ s with
        arp := s.arp.set i ⟨.pending, s.p.p0, 0#48, s.p.p1⟩
        p := { s.p with p5 := 6#32, p6 := BitVec.ofNat 32 i.val, p7 := s.arp[i].ip } }.completed .arpNew)

/-- R294, R295: `ARP_UPDATE` and learning: an existing entry is rewritten, a new one inserted, with eviction when the
cache is full; without insertion an unknown address changes nothing, and an existing entry is rewritten all the same. -/
def Obligations.ArpUpdateLearns : Prop :=
  ∀ (s : State) (mac : Mac), s.Inv → s.ppBusy = true → mac = s.p.p2.extractLsb' 0 16 ++ s.p.p1 →
    (0x10000 ≤ s.p.p2.toNat → exec .arpUpdate s = .next (s.completed .errBadArg)) ∧
    (s.p.p2.toNat < 0x10000 → ∀ i : Fin 16,
      (s.arp[i].state ≠ .empty → s.arp[i].ip = s.p.p0 →
        exec .arpUpdate s = .next ({ s with
          arp := s.arp.set i ⟨.resolved, s.p.p0, mac, s.p.p3⟩
          p := { s.p with p5 := 1#32, p6 := BitVec.ofNat 32 i.val, p7 := 0#32 } }.completed .ok)) ∧
      ((∀ j : Fin 16, s.arp[j].state ≠ .empty → s.arp[j].ip ≠ s.p.p0) → s.arp[i].state = .empty →
        (∀ j : Fin 16, j.val < i.val → s.arp[j].state ≠ .empty) →
        exec .arpUpdate s = .next ({ s with
          arp := s.arp.set i ⟨.resolved, s.p.p0, mac, s.p.p3⟩
          p := { s.p with p5 := 2#32, p6 := BitVec.ofNat 32 i.val, p7 := 0#32 } }.completed .ok)) ∧
      ((∀ j : Fin 16, s.arp[j].state ≠ .empty ∧ s.arp[j].ip ≠ s.p.p0) →
        (∀ j : Fin 16, s.arp[i].ts.toNat ≤ s.arp[j].ts.toNat) →
        (∀ j : Fin 16, j.val < i.val → s.arp[i].ts.toNat < s.arp[j].ts.toNat) →
        exec .arpUpdate s = .next ({ s with
          arp := s.arp.set i ⟨.resolved, s.p.p0, mac, s.p.p3⟩
          p := { s.p with p5 := 6#32, p6 := BitVec.ofNat 32 i.val, p7 := s.arp[i].ip } }.completed .ok))) ∧
    (∀ (ip : Word) (now : Word), (∀ j : Fin 16, s.arp[j].state ≠ .empty → s.arp[j].ip ≠ ip) →
      arpLearn s.arp ip mac now false = ⟨0#32, 0#32, 0#32, s.arp⟩) ∧
    (∀ (ip : Word) (now : Word) (insert : Bool) (i : Fin 16), s.arp[i].state ≠ .empty → s.arp[i].ip = ip →
      arpLearn s.arp ip mac now insert =
        ⟨1#32, BitVec.ofNat 32 i.val, 0#32, s.arp.set i ⟨.resolved, ip, mac, now⟩⟩) ∧
    (∀ (ip : Word) (now : Word) (i : Fin 16), (∀ j : Fin 16, s.arp[j].state ≠ .empty → s.arp[j].ip ≠ ip) →
      (s.arp[i].state = .empty → (∀ j : Fin 16, j.val < i.val → s.arp[j].state ≠ .empty) →
        arpLearn s.arp ip mac now true =
          ⟨2#32, BitVec.ofNat 32 i.val, 0#32, s.arp.set i ⟨.resolved, ip, mac, now⟩⟩) ∧
      ((∀ j : Fin 16, s.arp[j].state ≠ .empty) → (∀ j : Fin 16, s.arp[i].ts.toNat ≤ s.arp[j].ts.toNat) →
        (∀ j : Fin 16, j.val < i.val → s.arp[i].ts.toNat < s.arp[j].ts.toNat) →
        arpLearn s.arp ip mac now true =
          ⟨6#32, BitVec.ofNat 32 i.val, s.arp[i].ip, s.arp.set i ⟨.resolved, ip, mac, now⟩⟩))

/-- R298, R299: `UDP_BIND` and `UDP_UNBIND`. -/
def Obligations.PortsAreBoundAndUnbound : Prop :=
  ∀ (s : State) (port : Half), s.ppBusy = true → port = s.p.p1.extractLsb' 0 16 →
    (8 ≤ s.p.p0.toNat ∨ s.p.p1 = 0#32 ∨ 0xFFFF < s.p.p1.toNat →
      exec .udpBind s = .next (s.completed .errBadArg)) ∧
    (8 ≤ s.p.p0.toNat → exec .udpUnbind s = .next (s.completed .errBadArg)) ∧
    (∀ k : Fin 8, k.val = s.p.p0.toNat →
      (s.p.p1 ≠ 0#32 → s.p.p1.toNat ≤ 0xFFFF →
        ((∃ j : Fin 8, j ≠ k ∧ s.udpPort[j] = port) → exec .udpBind s = .next (s.completed .errPortInUse)) ∧
        ((∀ j : Fin 8, j ≠ k → s.udpPort[j] ≠ port) →
          exec .udpBind s = .next ({ s with udpPort := s.udpPort.set k port }.completed .ok))) ∧
      exec .udpUnbind s = .next ({ s with udpPort := s.udpPort.set k 0#16 }.completed .ok))

/-! ## Rules about the whole machine: what an operation can do, and what a step of any agent can do -/

/-- R40, R296: nothing but a reset returns an ARP entry to `EMPTY`, and only commands change the cache and the ports. -/
def Obligations.ArpEntriesAreNeverEmptied : Prop :=
  (∀ (i : Instr) (s t : State), exec i s = .next t → softReset i = false →
    (∀ k : Fin 16, s.arp[k].state ≠ .empty → t.arp[k].state ≠ .empty) ∧
    (formatOf i ≠ .ppCmd → t.arp = s.arp ∧ t.udpPort = s.udpPort)) ∧
  (∀ (s t : State) (turn : Turn) (rest : List Turn), s.schedule = turn :: rest → step s = .next t →
    resetTurn s.platform turn = false →
    (∀ k : Fin 16, s.arp[k].state ≠ .empty → t.arp[k].state ≠ .empty) ∧
    (turn ≠ .pp → t.arp = s.arp ∧ t.udpPort = s.udpPort))

/-- R354, R356: which operations and which turns change which events; an event is cleared only by a write of 1 or by
reset. -/
def Obligations.EventsAreSetAndClearedByTheirRules : Prop :=
  (∀ (i : Instr) (s t : State), exec i s = .next t → softReset i = false →
    (eirWrite i = false → s.eir &&& t.eir = s.eir) ∧
    (formatOf i = .mmio → eirWrite i = false → t.eir = s.eir) ∧
    (formatOf i = .mmfr → t.eir = s.eir ∨ t.eir = s.eir ||| 0b00001#5) ∧
    (formatOf i = .ppCmd → t.eir = s.eir ∨ t.eir = s.eir ||| 0b01000#5) ∧
    (formatOf i = .txDesc → ∃ e : BitVec 5, t.eir = s.eir ||| e ∧
      (e = 0b10000#5 ∨ e &&& 0b00110#5 = e)) ∧
    (formatOf i = .rxDesc → ∃ e : BitVec 5, t.eir = s.eir ||| e ∧
      (e = 0#5 ∨ e = 0b00100#5 ∨ e = 0b10000#5))) ∧
  (∀ (s t : State) (turn : Turn) (rest : List Turn), s.schedule = turn :: rest → step s = .next t →
    resetTurn s.platform turn = false → eirTurn s.platform turn = false →
    ∃ e : BitVec 5, t.eir = s.eir ||| e ∧
      ((∃ b a n, hostAccess turn = some (b, a, n)) → e = 0#5) ∧
      ((∃ v, turn = .mdio v) → e = 0#5 ∨ e = 0b00001#5) ∧
      (turn = .pp → e = 0#5 ∨ e = 0b01000#5) ∧
      (turn = .txdma → e = 0b10000#5 ∨ e &&& 0b00110#5 = e) ∧
      ((∃ f, turn = .wire f) → e = 0#5 ∨ e = 0b00100#5 ∨ e = 0b10000#5))

/-- R32: a counter changes only by plus one modulo 2^32, and nothing but a reset clears it. -/
def Obligations.CountersOnlyCount : Prop :=
  (∀ (i : Instr) (s t : State), exec i s = .next t → softReset i = false → ∀ n : CounterName,
    t.counters.get n = s.counters.get n ∨
      (t.counters.get n).toNat = ((s.counters.get n).toNat + 1) % 2 ^ 32) ∧
  (∀ (s t : State) (turn : Turn) (rest : List Turn), s.schedule = turn :: rest → step s = .next t →
    resetTurn s.platform turn = false → ∀ n : CounterName,
    t.counters.get n = s.counters.get n ∨
      (t.counters.get n).toNat = ((s.counters.get n).toNat + 1) % 2 ^ 32)

/-- R353: `HALTED` is cleared only by a reset, and while it is set nothing activates a ring that is inactive. -/
def Obligations.HaltedUntilReset : Prop :=
  (∀ (i : Instr) (s t : State), exec i s = .next t → softReset i = false → s.halted = true →
    t.halted = true ∧ (s.txActive = false → t.txActive = false) ∧ (s.rxActive = false → t.rxActive = false)) ∧
  (∀ (s t : State) (turn : Turn) (rest : List Turn), s.schedule = turn :: rest → step s = .next t →
    resetTurn s.platform turn = false → s.halted = true →
    t.halted = true ∧ (s.txActive = false → t.txActive = false) ∧ (s.rxActive = false → t.rxActive = false))

/-- R82, R353: whatever the turn, a step of the block changes memory only inside `DmaWindow`. -/
def Obligations.BlockWritesStayInDmaWindow : Prop :=
  ∀ (s t : State) (turn : Turn) (rest : List Turn), s.schedule = turn :: rest → step s = .next t →
    (turn = .txdma ∨ turn = .pp ∨ turn = .reset ∨ (∃ v, turn = .mdio v) ∨ (∃ f, turn = .wire f) ∨
      (∃ addr width, turn = .hostRead addr width)) →
    ∀ x : Nat, loadByte t.mem x ≠ loadByte s.mem x → inDmaWindow s.platform x = true

/-! ## The host's accesses to system memory, and its half of the contract (R16, R85, 93 list 1) -/

/-- A host access of any width that keeps the contract goes through: a load returns the little-endian value and a store
writes its bytes, and nothing else of the block changes (R85, R81).  A host that breaks its contract stops the run (U1 to
U4: R91, R96, R400, R401, R407): by its access to what an active ring owns or a pending command holds; by the write that
activates a ring with a breach noted (one to a ring already active changes nothing, R402), or moves a ring from under a footprint; at the turn of an engine or of the PP; and a store to word 1 after the hand-over,
a second store to word 0, a read of the buffer and a command over it are noted.  The widths, the fault past the top of memory
(log 6) and how the contract is measured (logs 4, 12 to 15) are the model's. -/
def Obligations.BrokenContractsStopTheRun : Prop :=
  ∀ (s : State) (turn : Turn) (rest : List Turn), s.schedule = turn :: rest → memoryWf s.mem = true →
    (∀ (store : Bool) (addr : Word) (n : Nat), hostAccess turn = some (store, addr, n) →
      touchesWindow s.platform addr n = false →
      (2 ^ 32 < addr.toNat + n → step s = .fault .addressSpace) ∧
      (addr.toNat + n ≤ 2 ^ 32 →
        ((if store then hostStoreBreach ⟨addr, n⟩ s else hostReadBreach ⟨addr, n⟩ s) = none →
          ∃ (m : Memory) (v : Word) (h : List Handover),
            step s = .next { s with schedule := rest, mem := m, hostData := v, handed := h } ∧
            (store = false → m = s.mem) ∧ (store = true → v = s.hostData) ∧ memoryWf m = true ∧
            (∀ x : Nat, x < addr.toNat ∨ addr.toNat + n ≤ x → loadByte m x = loadByte s.mem x) ∧
            (∀ w : Width, turn = .hostRead addr w → ∀ i, i < 4 →
              v.extractLsb' (8 * i) 8 = if i < w.bytes then loadByte s.mem (addr.toNat + i) else 0#8) ∧
            (∀ (w : Width) (d : Word), turn = .hostWrite addr w d → ∀ i, i < w.bytes →
              loadByte m (addr.toNat + i) = d.extractLsb' (8 * i) 8) ∧
            (∀ bytes : List Byte, turn = .hostStore addr bytes → ∀ (i : Nat) (b : Byte), bytes[i]? = some b →
              loadByte m (addr.toNat + i) = b) ∧
            (store = true → ∀ r ∈ s.handed, ownBit (load32 s.mem r.desc) = true → ¬ bytesMeet addr n r.desc 4 →
              bytesMeet addr n (r.desc + 4#32) 4 → ∃ r' ∈ h, r'.desc = r.desc ∧ r'.tx ≠ none ∧ r'.rx ≠ none) ∧
            (∀ d : Word, store = true → turn = .hostWrite addr .w32 d → d.getLsbD 31 = true → addr.toNat % 8 = 0 →
              ∀ r ∈ s.handed, r.desc = addr → ownBit (load32 s.mem addr) = true →
                ∃ r' ∈ h, r'.desc = addr ∧ r'.tx ≠ none ∧ r'.rx ≠ none) ∧
            (store = false → ∀ r ∈ s.handed, ownBit (load32 s.mem r.desc) = true →
              (bytesMeet addr n (load32 s.mem (r.desc + 4#32)) (descCtlOf (load32 s.mem r.desc)).len.toNat →
                ∃ r' ∈ h, r'.desc = r.desc ∧ r'.tx ≠ none) ∧
              (bytesMeet addr n (load32 s.mem (r.desc + 4#32)) s.platform.maxFrameSize →
                ∃ r' ∈ h, r'.desc = r.desc ∧ r'.rx ≠ none))) ∧
        (∀ d : Word, ownedTx s d ∨ ownedRx s d → store = true → bytesMeet addr n d 8 →
          step s = .fault .ownership) ∧
        (∀ (d : Word) (len : Nat), ownedTx s d → len = (descCtlOf (load32 s.mem d)).len.toNat →
          bytesMeet addr n (load32 s.mem (d + 4#32)) len → step s = .fault .ownership) ∧
        (∀ d : Word, ownedRx s d → bytesMeet addr n (load32 s.mem (d + 4#32)) s.platform.maxFrameSize →
          step s = .fault .ownership) ∧
        (∀ a ∈ ppFootprint s, meetsAny ⟨addr, n⟩ (ownedDescs s ++ ownedBuffers s) = false →
          bytesMeet addr n a.start a.len → step s = .fault .ppFootprint))) ∧
    (s.platform.base.toNat % 0x1000 = 0 → s.ctrlEn = true → s.halted = false → ∀ d : Word,
      (turn = .hostWrite (s.platform.base + 0x018#32) .w32 d →
        (s.txActive = false → notedOn s (readyDescTx s) Handover.tx → ∃ f, step s = .fault f) ∧
        (s.txActive = true → step s = .next { s with schedule := rest })) ∧
      (turn = .hostWrite (s.platform.base + 0x01C#32) .w32 d →
        (s.rxActive = false → notedOn s (readyDescRx s) Handover.rx → ∃ f, step s = .fault f) ∧
        (s.rxActive = true → step s = .next { s with schedule := rest }))) ∧
    (s.platform.base.toNat % 0x1000 = 0 → ∀ (d : Word) (a b : Span), a ∈ ppFootprint s → b ∈ heldSpans s →
      bytesMeet a.start a.len b.start b.len →
      turn = .hostWrite s.platform.base .w32 d ∨ turn = .hostWrite (s.platform.base + 0x010#32) .w32 d ∨
        turn = .hostWrite (s.platform.base + 0x014#32) .w32 d → step s = .fault .sharedMemory) ∧
    (turn = .txdma → s.txActive = true → admitted s.platform s.tdcur 4 = true →
      (ownBit (load32 s.mem s.tdcur) = true → admitted s.platform (s.tdcur + 4#32) 4 = true) →
      contractBroken s → ∃ f, step s = .fault f) ∧
    (∀ frame, turn = .wire frame → rxIgnores s = false → rxScreen frame s = none →
      admitted s.platform s.rdcur 4 = true →
      (ownBit (load32 s.mem s.rdcur) = true → admitted s.platform (s.rdcur + 4#32) 4 = true) →
      contractBroken s → ∃ f, step s = .fault f) ∧
    (∀ a b : Span, turn = .pp → a ∈ ppFootprint s → b ∈ heldSpans s → bytesMeet a.start a.len b.start b.len →
      step s = .fault .sharedMemory) ∧
    (∀ (a : Span) (r : Handover), a ∈ ppFootprint s → r ∈ s.handed → ownBit (load32 s.mem r.desc) = true →
      bytesMeet a.start a.len (load32 s.mem (r.desc + 4#32)) s.platform.maxFrameSize →
      ∃ r' ∈ handedAfterPp s, r'.desc = r.desc ∧ r'.rx ≠ none)
end

