-- ==== Sys2Proof/Laws/Checksum.lean ====
section
/-! SUPPORT. The end-around carry (spec 00_scope R15): the loop of `foldCarry` always ends, and with the residue modulo
0xFFFF that lies in 1 .. 0xFFFF (0 for 0). -/

namespace Sys2Proof.Machine

/-- The residue the carry loop ends in. -/
def foldValue (v : Nat) : Nat := if v = 0 then 0 else (v - 1) % 0xFFFF + 1

theorem foldValue_step (v : Nat) (h : v > 0xFFFF) : foldValue (v % 0x10000 + v / 0x10000) = foldValue v := by
  unfold foldValue
  have hd := Nat.div_add_mod v 0x10000
  have hq : v / 0x10000 ≥ 1 := by omega
  rw [if_neg (by omega), if_neg (by omega)]
  have e : v - 1 = (v % 0x10000 + v / 0x10000 - 1) + 0xFFFF * (v / 0x10000) := by omega
  rw [e, Nat.add_mul_mod_self_left]

theorem foldLoop_eq (k v : Nat) (h : v ≤ 0xFFFF ∨ v / 0x10000 + 1 ≤ k ∨ (1 ≤ k ∧ v = 0x10000)) :
    foldLoop k v = foldValue v := by
  induction k generalizing v with
  | zero =>
    have hv : v ≤ 0xFFFF := by omega
    unfold foldLoop foldValue
    split
    · assumption
    · rw [Nat.mod_eq_of_lt (by omega)]; omega
  | succ k ih =>
    unfold foldLoop
    split
    · rename_i hv
      rw [ih, foldValue_step v hv]
      omega
    · unfold foldValue
      split
      · assumption
      · rw [Nat.mod_eq_of_lt (by omega)]; omega

/-- The carry loop is run to its end. -/
theorem foldCarry_eq (v : Nat) : foldCarry v = foldValue v := foldLoop_eq _ v (by omega)

theorem foldCarry_le (v : Nat) : foldCarry v ≤ 0xFFFF := by
  rw [foldCarry_eq]; unfold foldValue
  split
  · omega
  · have := Nat.mod_lt (v - 1) (show 0xFFFF > 0 by omega); omega

theorem foldCarry_pos {v : Nat} (h : v ≠ 0) : foldCarry v ≠ 0 := by
  rw [foldCarry_eq]; unfold foldValue; rw [if_neg h]; omega

/-- The carry loop keeps the residue modulo 0xFFFF. -/
theorem foldCarry_mod (v : Nat) : foldCarry v % 0xFFFF = v % 0xFFFF := by
  rw [foldCarry_eq]; unfold foldValue
  split
  · simp_all
  · omega

@[simp] theorem toNat_ocsum (d : List Byte) (s : Half) : (ocsum d s).toNat = foldCarry (s.toNat + wordSum d) := by
  unfold ocsum
  rw [BitVec.toNat_ofNat, Nat.mod_eq_of_lt]
  have := foldCarry_le (s.toNat + wordSum d)
  omega

@[simp] theorem wordSum_nil : wordSum [] = 0 := rfl

@[simp] theorem wordSum_cons_cons (b c : Byte) (t : List Byte) :
    wordSum (b :: c :: t) = b.toNat * 256 + c.toNat + wordSum t := rfl

/-- The sum of an even-length list followed by another. -/
theorem wordSum_append (d e : List Byte) (h : d.length % 2 = 0) : wordSum (d ++ e) = wordSum d + wordSum e := by
  match d with
  | [] => simp
  | [b] => simp at h
  | b :: c :: t =>
    have ht : t.length % 2 = 0 := by simp only [List.length_cons] at h; omega
    simp only [List.cons_append, wordSum_cons_cons, wordSum_append t e ht]
    omega

end Sys2Proof.Machine
end

