-- ==== Sys2Proof/Laws/Classify.lean ====
section
/-! SUPPORT. What each stage of `RX_CLASSIFY` can end in, said once per stage (spec 45_pp_classify R261 to R265). -/

namespace Sys2Proof.Machine

/-- The ICMP stage (R264): a drop, or an echo with `P1` to `P5`. -/
theorem icmpStage_cases (src dst : Word) (l4len : Nat) (s : State) :
    ((l4len < 8 ∨ icmpIsEcho s = false) ∧ icmpStage src dst l4len s = .done .dropIcmp (count .icmpDrop s)) ∨
    (8 ≤ l4len ∧ icmpIsEcho s = true ∧ icmpStage src dst l4len s =
      .done (if frame8 s 34#32 = 8#8 then .rxIcmpEchoRequest else .rxIcmpEchoReply)
        { s with
          p :=
            { s.p with
              p1 := src
              p2 := (frame16 s 38#32).setWidth 32
              p3 := (frame16 s 40#32).setWidth 32
              p4 := ofLen l4len
              p5 := dst } }) := by
  unfold icmpStage dropWith
  by_cases h1 : l4len < 8
  · exact .inl ⟨.inl h1, if_pos h1⟩
  · rw [if_neg h1]
    cases h2 : icmpIsEcho s with
    | false => exact .inl ⟨.inr rfl, rfl⟩
    | true => exact .inr ⟨by omega, rfl, rfl⟩

/-- The UDP stage (R265): a bad length, no port, or a datagram with `P1` to `P7`. -/
theorem udpStage_cases (src dst : Word) (l4len : Nat) (s : State) :
    ((l4len < 8 ∨ (frame16 s 38#32).toNat < 8 ∨ l4len < (frame16 s 38#32).toNat) ∧
      udpStage src dst l4len s = .done .dropUdpLen (count .udpBadlen s)) ∨
    (8 ≤ l4len ∧ 8 ≤ (frame16 s 38#32).toNat ∧ (frame16 s 38#32).toNat ≤ l4len ∧
      portMatch s.udpPort (frame16 s 36#32) = none ∧
      udpStage src dst l4len s = .done .dropUdpPort (count .udpNoport s)) ∨
    (∃ k, 8 ≤ l4len ∧ 8 ≤ (frame16 s 38#32).toNat ∧ (frame16 s 38#32).toNat ≤ l4len ∧
      portMatch s.udpPort (frame16 s 36#32) = some k ∧ udpStage src dst l4len s = .done .rxUdp
        { s with
          p :=
            { s.p with
              p1 := src
              p2 := (frame16 s 34#32).setWidth 32
              p3 := ofLen k.val
              p4 := frameBase s + 42#32
              p5 := ofLen ((frame16 s 38#32).toNat - 8)
              p6 := dst
              p7 := (frame16 s 36#32).setWidth 32 } }) := by
  unfold udpStage dropWith
  by_cases h1 : l4len < 8
  · exact .inl ⟨.inl h1, if_pos h1⟩
  · simp only [if_neg h1]
    by_cases h2 : (decide ((frame16 s 38#32).toNat < 8) || decide ((frame16 s 38#32).toNat > l4len)) = true
    · rw [if_pos h2]
      simp only [Bool.or_eq_true, decide_eq_true_eq] at h2
      exact .inl ⟨.inr h2, rfl⟩
    · rw [if_neg h2]
      simp only [Bool.or_eq_true, decide_eq_true_eq, not_or] at h2
      cases h3 : portMatch s.udpPort (frame16 s 36#32) with
      | none => exact .inr (.inl ⟨by omega, by omega, by omega, rfl, rfl⟩)
      | some k => exact .inr (.inr ⟨k, by omega, by omega, by omega, rfl, rfl⟩)

/-- The ARP stage (R262): unsupported fields, or an accepted packet. -/
theorem arpStage_cases (now : Word) (s : State) :
    (arpFieldsOk s = false ∧ arpStage now s = .done .dropArpBad (count .arpBad s)) ∨
    (arpFieldsOk s = true ∧ arpStage now s = .done (arpResultOf s)
      { s with
        arp := (arpStageLearned s now).cache
        p :=
          { s.p with
            p1 := frame32 s 28#32
            p2 := macLo (frameMac s 22#32)
            p3 := macHi (frameMac s 22#32)
            p4 := frame32 s 38#32
            p5 := (arpStageLearned s now).flags
            p6 := (arpStageLearned s now).slot
            p7 := (arpStageLearned s now).evip } }) := by
  unfold arpStage dropWith
  cases h : arpFieldsOk s with
  | false => exact .inl ⟨rfl, rfl⟩
  | true => exact .inr ⟨rfl, rfl⟩

/-- The three results of the ARP stage. -/
theorem arpResultOf_cases (s : State) :
    arpResultOf s = .rxArpReply ∨ arpResultOf s = .rxArpRequest ∨ arpResultOf s = .rxArpOther := by
  unfold arpResultOf
  split
  · exact .inl rfl
  · split
    · exact .inr (.inl rfl)
    · exact .inr (.inr rfl)

/-- The IPv4 stage (R263): one of its drops, or the stage the protocol selects. -/
theorem ip4Stage_cases (len : Nat) (s : State) :
    ip4Stage len s = .done .dropIp4Hdr (count .ip4Badhdr s) ∨
    ip4Stage len s = .done .dropIp4Csum (count .ip4Badcsum s) ∨
    ip4Stage len s = .done .dropIp4Dst (count .ip4Baddst s) ∨
    ip4Stage len s = .done .dropIp4Proto (count .ip4Badproto s) ∨
    (frame8 s 23#32 = 1#8 ∧ ip4Stage len s =
      icmpStage (frame32 s 26#32) (frame32 s 30#32) ((frame16 s 16#32).toNat - 20) s) ∨
    (frame8 s 23#32 = 17#8 ∧ ip4Stage len s =
      udpStage (frame32 s 26#32) (frame32 s 30#32) ((frame16 s 16#32).toNat - 20) s) := by
  unfold ip4Stage dropWith
  simp only
  split
  · exact .inl rfl
  split
  · exact .inr (.inl rfl)
  split
  · exact .inl rfl
  split
  · exact .inl rfl
  split
  · exact .inr (.inr (.inl rfl))
  split
  · rename_i h; exact .inr (.inr (.inr (.inr (.inl ⟨h, rfl⟩))))
  split
  · rename_i h; exact .inr (.inr (.inr (.inr (.inr ⟨h, rfl⟩))))
  · exact .inr (.inr (.inr (.inl rfl)))

/-- The Layer-2 stage (R261): one of its drops, or the ARP or IPv4 stage after the acceptance count. -/
theorem l2Stage_cases (len : Nat) (now : Word) (s : State) :
    l2Stage len now s = .done .dropL2Runt (count .l2OtherDrop s) ∨
    l2Stage len now s = .done .dropL2ArpShort (count .l2ArpDrop s) ∨
    l2Stage len now s = .done .dropL2Ip4Short (count .l2Ip4Drop s) ∨
    l2Stage len now s = .done .dropL2Type (count .l2OtherDrop s) ∨
    (42 ≤ len ∧ frame16 s 12#32 = 0x0806#16 ∧ l2Stage len now s = arpStage now (count .l2ArpAcc s)) ∨
    (34 ≤ len ∧ frame16 s 12#32 = 0x0800#16 ∧ l2Stage len now s = ip4Stage len (count .l2Ip4Acc s)) := by
  unfold l2Stage dropWith
  split
  · exact .inl rfl
  split
  · rename_i h
    split
    · exact .inr (.inl rfl)
    · exact .inr (.inr (.inr (.inr (.inl ⟨by omega, h, rfl⟩))))
  split
  · rename_i h
    split
    · exact .inr (.inr (.inl rfl))
    · exact .inr (.inr (.inr (.inr (.inr ⟨by omega, h, rfl⟩))))
  · exact .inr (.inr (.inr (.inl rfl)))

end Sys2Proof.Machine
end

