-- ==== Sys2Proof/Laws/Ops.lean ====
section
/-! SUPPORT. One lemma per shared operation over registers and the packet processor that says once everything it can
do. -/

namespace Sys2Proof.Machine

/-- A read-only register: a read returns the value, a write changes nothing. -/
theorem accessReadOnly_cases {v : Word} {a : RegAccess} {s t : State} (h : accessReadOnly v a s = .next t) :
    (a = .read ∧ t = readReg v s) ∨ (∃ d, a = .write d ∧ t = s) := by
  cases a with
  | read => exact .inl ⟨rfl, by simpa [accessReadOnly] using h.symm⟩
  | write d => exact .inr ⟨d, rfl, by simpa [accessReadOnly] using h.symm⟩

/-- A gated register: a read returns the value, a write is done when accepted and changes nothing otherwise. -/
theorem accessGated_cases {v : Word} {ok : Bool} {write : Word → State} {a : RegAccess} {s t : State}
    (h : accessGated v ok write a s = .next t) :
    (a = .read ∧ t = readReg v s) ∨ (∃ d, a = .write d ∧ ok = true ∧ t = write d) ∨
      (∃ d, a = .write d ∧ ok = false ∧ t = s) := by
  cases a with
  | read => exact .inl ⟨rfl, by simpa [accessGated] using h.symm⟩
  | write d =>
    cases ok with
    | false => exact .inr (.inr ⟨d, rfl, rfl, by simpa [accessGated] using h.symm⟩)
    | true => exact .inr (.inl ⟨d, rfl, rfl, by simpa [accessGated] using h.symm⟩)

/-- What the completion step of a command can do: R222's order of checks. -/
theorem ppExecute_cases (check : Option PpResult) (foot : Word) (len : Nat) (effect : PpEnd) (s : State) :
    (∃ c, check = some c ∧ ppExecute check foot len effect s = ppFinish c s) ∨
    (check = none ∧ admitted s.platform foot len = false ∧ ppExecute check foot len effect s = ppFinish .errBus s) ∨
    (∃ c, check = none ∧ admitted s.platform foot len = true ∧ effect = .raised c ∧
      ppExecute check foot len effect s = ppFinish c s) ∨
    (∃ c u, check = none ∧ admitted s.platform foot len = true ∧ effect = .done c u ∧
      ppExecute check foot len effect s = ppFinish c u) := by
  cases check with
  | some c => exact .inl ⟨c, rfl, rfl⟩
  | none =>
    cases hadm : admitted s.platform foot len with
    | false => exact .inr (.inl ⟨rfl, rfl, by simp [ppExecute, hadm]⟩)
    | true =>
      cases effect with
      | raised c => exact .inr (.inr (.inl ⟨c, rfl, rfl, rfl, by simp [ppExecute, hadm]⟩))
      | done c u => exact .inr (.inr (.inr ⟨c, u, rfl, rfl, rfl, by simp [ppExecute, hadm]⟩))

/-- A command always completes; without `PP_BUSY` nothing happens. -/
theorem ppComplete_eq (check : Option PpResult) (foot : Word) (len : Nat) (effect : PpEnd) (s : State) :
    ppComplete check foot len effect s = .next (if s.ppBusy then ppExecute check foot len effect s else s) := rfl

theorem ppComplete_busy {check : Option PpResult} {foot : Word} {len : Nat} {effect : PpEnd} {s : State}
    (h : s.ppBusy = true) : ppComplete check foot len effect s = .next (ppExecute check foot len effect s) := by
  simp [ppComplete, h]

theorem ppComplete_idle {check : Option PpResult} {foot : Word} {len : Nat} {effect : PpEnd} {s : State}
    (h : s.ppBusy = false) : ppComplete check foot len effect s = .next s := by
  simp [ppComplete, h]

/-- A property that a state and the result of a finished effect have, the completed state has. -/
theorem ppComplete_keeps {P : State → Prop} {check : Option PpResult} {foot : Word} {len : Nat} {effect : PpEnd}
    {s t : State} (h : ppComplete check foot len effect s = .next t) (hs : P s)
    (hf : ∀ c u, P u → P (ppFinish c u)) (he : ∀ c u, check = none → admitted s.platform foot len = true →
      effect = .done c u → P u) : P t := by
  cases hb : s.ppBusy with
  | false => rw [ppComplete_idle hb] at h; cases h; exact hs
  | true =>
    rw [ppComplete_busy hb] at h
    rcases ppExecute_cases check foot len effect s with ⟨c, -, e⟩ | ⟨-, -, e⟩ | ⟨c, -, -, -, e⟩ | ⟨c, u, h1, h2, h3, e⟩ <;>
      rw [e] at h <;> cases h
    · exact hf _ _ hs
    · exact hf _ _ hs
    · exact hf _ _ hs
    · exact hf _ _ (he c u h1 h2 h3)

/-- The empty range is admitted everywhere (R82). -/
@[simp] theorem admitted_zero (pf : Platform) (a : Word) : admitted pf a 0 = true := by simp [admitted]

/-- Setting an event keeps the others (R356). -/
theorem setEvent_eir_and (e : EventBit) (s : State) : s.eir &&& (setEvent e s).eir = s.eir := by
  unfold setEvent
  ext i hi
  simp +contextual

end Sys2Proof.Machine
end

