-- ==== Sys2Proof/Laws/Tables.lean ====
section
/-! SUPPORT. What the lookups of the ARP cache and of the port table answer, said once each. -/

namespace Sys2Proof.Machine

/-- A lookup that hits (R291). -/
theorem arpFind_some {cache : Vector ArpEntry 16} {ip : Word} {i : Fin 16} (h : arpFind cache ip = some i) :
    cache[i].state ≠ .empty ∧ cache[i].ip = ip := by
  have := List.find?_some h
  simpa using this

/-- A lookup that misses (R291). -/
theorem arpFind_none {cache : Vector ArpEntry 16} {ip : Word} (h : arpFind cache ip = none) (i : Fin 16)
    (hi : cache[i].state ≠ .empty) : cache[i].ip ≠ ip := by
  have := List.find?_eq_none.mp h i (List.mem_finRange i)
  intro e
  exact this (by rw [e]; simpa using hi)

/-- The lowest `EMPTY` entry (R292). -/
theorem arpFirstEmpty_some {cache : Vector ArpEntry 16} {i : Fin 16} (h : arpFirstEmpty cache = some i) :
    cache[i].state = .empty := by
  have := List.find?_some h
  simpa using this

theorem arpFirstEmpty_none {cache : Vector ArpEntry 16} (h : arpFirstEmpty cache = none) (i : Fin 16) :
    cache[i].state ≠ .empty := by
  have := List.find?_eq_none.mp h i (List.mem_finRange i)
  simpa using this

/-- The two ways `alloc()` answers (R292). -/
theorem arpAlloc_cases (cache : Vector ArpEntry 16) :
    (∃ i, arpFirstEmpty cache = some i ∧ arpAlloc cache = ⟨i, false, 0#32⟩) ∨
    (arpFirstEmpty cache = none ∧ arpAlloc cache = ⟨arpOldest cache, true, cache[arpOldest cache].ip⟩) := by
  unfold arpAlloc
  cases h : arpFirstEmpty cache with
  | some i => exact .inl ⟨i, rfl, rfl⟩
  | none => exact .inr ⟨rfl, rfl⟩

/-- What learning does to the cache (R295): an update, an insertion, or nothing. -/
theorem arpLearn_cases (cache : Vector ArpEntry 16) (ip : Word) (mac : Mac) (now : Word) (insert : Bool) :
    (∃ i, arpFind cache ip = some i ∧
      arpLearn cache ip mac now insert = ⟨1#32, slotWord i, 0#32, cache.set i ⟨.resolved, ip, mac, now⟩⟩) ∨
    (arpFind cache ip = none ∧ insert = true ∧ arpLearn cache ip mac now insert =
      ⟨insertFlags (arpAlloc cache).evicted, slotWord (arpAlloc cache).slot, (arpAlloc cache).evip,
        cache.set (arpAlloc cache).slot ⟨.resolved, ip, mac, now⟩⟩) ∨
    (arpFind cache ip = none ∧ insert = false ∧ arpLearn cache ip mac now insert = ⟨0#32, 0#32, 0#32, cache⟩) := by
  unfold arpLearn
  cases h : arpFind cache ip with
  | some i => exact .inl ⟨i, rfl, rfl⟩
  | none =>
    cases insert with
    | true => exact .inr (.inl ⟨rfl, rfl, rfl⟩)
    | false => exact .inr (.inr ⟨rfl, rfl, rfl⟩)

/-- The three ends of `ARP_RESOLVE` (R293). -/
theorem arpResolveEffect_cases (s : State) :
    (∃ i, arpFind s.arp s.p.p0 = some i ∧ s.arp[i].state = .resolved ∧ arpResolveEffect s = arpHitEffect i s) ∨
    (∃ i, arpFind s.arp s.p.p0 = some i ∧ s.arp[i].state ≠ .resolved ∧ arpResolveEffect s = arpPendingEffect i s) ∨
    (arpFind s.arp s.p.p0 = none ∧ arpResolveEffect s = arpMissEffect s) := by
  unfold arpResolveEffect
  cases h : arpFind s.arp s.p.p0 with
  | some i =>
    by_cases hr : s.arp[i].state = .resolved
    · exact .inl ⟨i, rfl, hr, if_pos hr⟩
    · exact .inr (.inl ⟨i, rfl, hr, if_neg hr⟩)
  | none => exact .inr (.inr ⟨rfl, rfl⟩)

/-- No other slot holds the port (R298). -/
theorem portTaken_false {ports : Vector Half 8} {k : Nat} {port : Half} (h : portTaken ports k port = false) (j : Fin 8)
    (hj : j.val ≠ k) : ports[j] ≠ port := by
  have := List.any_eq_false.mp h j (List.mem_finRange j)
  simp only [Bool.and_eq_true, bne_iff_ne, beq_iff_eq, not_and] at this
  exact this hj

/-- A port that matches (R300). -/
theorem portMatch_some {ports : Vector Half 8} {port : Half} {k : Fin 8} (h : portMatch ports port = some k) :
    port ≠ 0#16 ∧ ports[k] = port := by
  unfold portMatch at h
  split at h
  · exact absurd h (by simp)
  · rename_i hp
    have := List.find?_some h
    exact ⟨hp, by simpa using this⟩

/-- A port that no slot holds (R300). -/
theorem portMatch_none {ports : Vector Half 8} {port : Half} (h : portMatch ports port = none) :
    port = 0#16 ∨ ∀ k : Fin 8, ports[k] ≠ port := by
  unfold portMatch at h
  split at h
  · exact .inl ‹_›
  · refine .inr fun k hk => ?_
    have := List.find?_eq_none.mp h k (List.mem_finRange k)
    simp_all

end Sys2Proof.Machine
end

