-- ==== Sys2Proof/Laws/Commands.lean ====
section
/-! SUPPORT. Every packet-processor command is one `ppComplete` of a check, a footprint and an effect, and what the effect
of a finished command leaves alone. -/

namespace Sys2Proof.Machine

/-- `u` differs from `s` at most in what a command may write: memory, the tables, the counters and the operands. -/
def sameButCommandState (s u : State) : Prop :=
  u = { s with mem := u.mem, arp := u.arp, udpPort := u.udpPort, counters := u.counters, p := u.p }

theorem sameButCommandState_refl (s : State) : sameButCommandState s s := rfl

theorem sameButCommandState_write (s : State) (m : Memory) (a : Vector ArpEntry 16) (q : Vector Half 8) (c : Counters)
    (p : PRegs) : sameButCommandState s { s with mem := m, arp := a, udpPort := q, counters := c, p := p } := rfl

theorem sameButCommandState_trans {s t u : State} (h : sameButCommandState s t) (h' : sameButCommandState t u) :
    sameButCommandState s u := by
  unfold sameButCommandState at *
  rw [h', h]

theorem sameButCommandState_count (n : CounterName) (s : State) : sameButCommandState s (count n s) := rfl

theorem sameButCommandState_setPort (k : Nat) (q : Half) (s : State) : sameButCommandState s (setPort k q s) := by
  unfold setPort
  split
  · rfl
  · rfl

/-- What a finished effect is: it writes command state only, and its code is no error code. -/
def goodEffect (s : State) (e : PpEnd) : Prop :=
  ∀ c u, e = .done c u → sameButCommandState s u ∧ (c.code.toNat = 0 ∨ 6 < c.code.toNat)

theorem goodEffect_done {s u : State} {c : PpResult} (h : sameButCommandState s u)
    (hc : c.code.toNat = 0 ∨ 6 < c.code.toNat) : goodEffect s (.done c u) := by
  intro c' u' e; cases e; exact ⟨h, hc⟩

theorem goodEffect_raised (s : State) (c : PpResult) : goodEffect s (.raised c) := by
  intro c' u' e; cases e

theorem goodEffect_icmpStage (s0 s : State) (src dst : Word) (n : Nat) (h : sameButCommandState s0 s) :
    goodEffect s0 (icmpStage src dst n s) := by
  rcases icmpStage_cases src dst n s with ⟨-, e⟩ | ⟨-, -, e⟩ <;> rw [e]
  · exact goodEffect_done (sameButCommandState_trans h rfl) (.inr (by decide))
  · refine goodEffect_done (sameButCommandState_trans h rfl) (.inr ?_)
    split <;> decide

theorem goodEffect_udpStage (s0 s : State) (src dst : Word) (n : Nat) (h : sameButCommandState s0 s) :
    goodEffect s0 (udpStage src dst n s) := by
  rcases udpStage_cases src dst n s with ⟨-, e⟩ | ⟨-, -, -, -, e⟩ | ⟨k, -, -, -, -, e⟩ <;> rw [e] <;>
    exact goodEffect_done (sameButCommandState_trans h rfl) (.inr (by decide))

theorem goodEffect_arpStage (s0 s : State) (now : Word) (h : sameButCommandState s0 s) :
    goodEffect s0 (arpStage now s) := by
  rcases arpStage_cases now s with ⟨-, e⟩ | ⟨-, e⟩ <;> rw [e]
  · exact goodEffect_done (sameButCommandState_trans h rfl) (.inr (by decide))
  · refine goodEffect_done (sameButCommandState_trans h rfl) (.inr ?_)
    rcases arpResultOf_cases s with h | h | h <;> rw [h] <;> decide

theorem goodEffect_ip4Stage (s0 s : State) (n : Nat) (h : sameButCommandState s0 s) :
    goodEffect s0 (ip4Stage n s) := by
  rcases ip4Stage_cases n s with e | e | e | e | ⟨-, e⟩ | ⟨-, e⟩ <;> rw [e]
  · exact goodEffect_done (sameButCommandState_trans h rfl) (.inr (by decide))
  · exact goodEffect_done (sameButCommandState_trans h rfl) (.inr (by decide))
  · exact goodEffect_done (sameButCommandState_trans h rfl) (.inr (by decide))
  · exact goodEffect_done (sameButCommandState_trans h rfl) (.inr (by decide))
  · exact goodEffect_icmpStage _ _ _ _ _ h
  · exact goodEffect_udpStage _ _ _ _ _ h

theorem goodEffect_l2Stage (s : State) (n : Nat) (now : Word) : goodEffect s (l2Stage n now s) := by
  rcases l2Stage_cases n now s with e | e | e | e | ⟨-, -, e⟩ | ⟨-, -, e⟩ <;> rw [e]
  · exact goodEffect_done rfl (.inr (by decide))
  · exact goodEffect_done rfl (.inr (by decide))
  · exact goodEffect_done rfl (.inr (by decide))
  · exact goodEffect_done rfl (.inr (by decide))
  · exact goodEffect_arpStage _ _ _ (sameButCommandState_count _ _)
  · exact goodEffect_ip4Stage _ _ _ (sameButCommandState_count _ _)

/-- Every command is one `ppComplete`, with a good effect. -/
theorem exec_ppCommand (i : Instr) (s : State) (h : formatOf i = .ppCmd) :
    ∃ check foot len effect, exec i s = ppComplete check foot len effect s ∧ goodEffect s effect := by
  cases i with
  | nop => exact ⟨_, _, _, _, rfl, goodEffect_done rfl (.inl rfl)⟩
  | cksum => exact ⟨_, _, _, _, rfl, goodEffect_done rfl (.inl rfl)⟩
  | ethHdr =>
    refine ⟨_, _, _, _, rfl, ?_⟩
    unfold ethHdrEffect
    exact goodEffect_done (sameButCommandState_write _ _ _ _ _ _) (.inl rfl)
  | arpReq =>
    refine ⟨_, _, _, _, rfl, ?_⟩
    unfold arpReqEffect
    exact goodEffect_done (sameButCommandState_write _ _ _ _ _ _) (.inl rfl)
  | arpReply =>
    refine ⟨_, _, _, _, rfl, ?_⟩
    unfold arpReplyEffect
    exact goodEffect_done (sameButCommandState_write _ _ _ _ _ _) (.inl rfl)
  | ip4Hdr =>
    refine ⟨_, _, _, _, rfl, ?_⟩
    unfold ip4HdrEffect
    exact goodEffect_done (sameButCommandState_write _ _ _ _ _ _) (.inl rfl)
  | icmpEchoReq =>
    refine ⟨_, _, _, _, rfl, ?_⟩
    unfold icmpEchoReqEffect
    exact goodEffect_done (sameButCommandState_write _ _ _ _ _ _) (.inl rfl)
  | icmpEchoReply =>
    refine ⟨_, _, _, _, rfl, ?_⟩
    unfold icmpEchoReplyEffect
    split
    · exact goodEffect_done (sameButCommandState_write _ _ _ _ _ _) (.inl rfl)
    · exact goodEffect_raised _ _
  | udpHdr csum =>
    refine ⟨_, _, _, _, rfl, ?_⟩
    unfold udpHdrEffect
    exact goodEffect_done (sameButCommandState_write _ _ _ _ _ _) (.inl rfl)
  | rxClassify => exact ⟨_, _, _, _, rfl, goodEffect_l2Stage _ _ _⟩
  | ip4Nexthop =>
    refine ⟨_, _, _, _, rfl, ?_⟩
    unfold ip4NexthopEffect
    split
    · exact goodEffect_done rfl (.inl rfl)
    · split
      · exact goodEffect_done rfl (.inl rfl)
      · exact goodEffect_raised _ _
  | arpResolve =>
    refine ⟨_, _, _, _, rfl, ?_⟩
    rcases arpResolveEffect_cases s with ⟨i, -, -, e⟩ | ⟨i, -, -, e⟩ | ⟨-, e⟩ <;> rw [e] <;>
      exact goodEffect_done rfl (.inr (by decide))
  | arpUpdate => exact ⟨_, _, _, _, rfl, goodEffect_done rfl (.inl rfl)⟩
  | udpBind => exact ⟨_, _, _, _, rfl, goodEffect_done (sameButCommandState_setPort _ _ _) (.inl rfl)⟩
  | udpUnbind => exact ⟨_, _, _, _, rfl, goodEffect_done (sameButCommandState_setPort _ _ _) (.inl rfl)⟩
  | ppIllegal w => exact ⟨_, _, _, _, rfl, goodEffect_done rfl (.inl rfl)⟩
  | _ => cases h

end Sys2Proof.Machine
end

