-- ==== Sys2Proof/Laws/Contract.lean ====
section
/-! SUPPORT. What the host's contract (Machine/Contract.lean) can answer, said once each. -/

namespace Sys2Proof.Machine

/-- Two spans overlap exactly if some byte belongs to both. -/
theorem Span.overlaps_iff (a b : Span) : a.overlaps b = true ↔ bytesMeet a.start a.len b.start b.len := by
  simp only [Span.overlaps, bytesMeet, Bool.and_eq_true, decide_eq_true_eq]
  constructor
  · rintro ⟨⟨⟨h1, h2⟩, h3⟩, h4⟩
    exact ⟨max a.start.toNat b.start.toNat, by omega, by omega, by omega, by omega⟩
  · rintro ⟨x, h1, h2, h3, h4⟩
    omega

/-- A span meets a list exactly if it meets a member. -/
theorem meetsAny_iff (a : Span) (l : List Span) :
    meetsAny a l = true ↔ ∃ b ∈ l, bytesMeet a.start a.len b.start b.len := by
  simp [meetsAny, Span.overlaps_iff]

/-- Two members of a list that meet, in their places, and the list is not pairwise apart. -/
theorem pairwiseApart_false {l : List Span} {i j : Nat} {a b : Span} (hij : i < j) (ha : l[i]? = some a)
    (hb : l[j]? = some b) (hm : bytesMeet a.start a.len b.start b.len) : pairwiseApart l = false := by
  induction l generalizing i j with
  | nil => simp at ha
  | cons c t ih =>
    obtain ⟨j, rfl⟩ : ∃ k, j = k + 1 := ⟨j - 1, by omega⟩
    rw [List.getElem?_cons_succ] at hb
    cases i with
    | zero =>
      obtain rfl : c = a := by simpa using ha
      simp [pairwiseApart, (meetsAny_iff c t).2 ⟨b, List.mem_of_getElem? hb, hm⟩]
    | succ i =>
      have ht := ih (i := i) (j := j) (by omega) (by simpa using ha) hb
      simp [pairwiseApart, ht]

/-- The slots of a ring. -/
theorem mem_ringSlots (base : Word) (capacity : Nat) (d : Word) :
    d ∈ ringSlots base capacity ↔ ∃ k, k < capacity ∧ d = base + BitVec.ofNat 32 (8 * k) := by
  simp [ringSlots, ofLen, eq_comm]

/-- The ready slots of the Tx ring. -/
theorem readySlotTx_iff (s : State) (d : Word) : readySlotTx s d ↔ d ∈ readyOf s (txSlots s) := by
  simp [readySlotTx, readyOf, isReady, txSlots, mem_ringSlots]

/-- The ready slots of the Rx ring. -/
theorem readySlotRx_iff (s : State) (d : Word) : readySlotRx s d ↔ d ∈ readyOf s (rxSlots s) := by
  simp [readySlotRx, readyOf, isReady, rxSlots, mem_ringSlots]

/-- The descriptors of the Tx ring are its slots and the one at `TDCUR`. -/
theorem mem_txDescs (s : State) (d : Word) : d ∈ txDescs s ↔ d ∈ txSlots s ∨ d = s.tdcur := by
  unfold txDescs
  split
  · rename_i h
    rw [List.contains_iff_mem] at h
    exact ⟨.inl, fun hd => hd.elim id fun e => e ▸ h⟩
  · simp

/-- The descriptors of the Rx ring are its slots and the one at `RDCUR`. -/
theorem mem_rxDescs (s : State) (d : Word) : d ∈ rxDescs s ↔ d ∈ rxSlots s ∨ d = s.rdcur := by
  unfold rxDescs
  split
  · rename_i h
    rw [List.contains_iff_mem] at h
    exact ⟨.inl, fun hd => hd.elim id fun e => e ▸ h⟩
  · simp

/-- The ready descriptors of the Tx ring. -/
theorem readyDescTx_iff (s : State) (d : Word) : readyDescTx s d ↔ d ∈ readyOf s (txDescs s) := by
  simp [readyDescTx, readySlotTx_iff, readyOf, isReady, mem_txDescs, or_and_right]

/-- The ready descriptors of the Rx ring. -/
theorem readyDescRx_iff (s : State) (d : Word) : readyDescRx s d ↔ d ∈ readyOf s (rxDescs s) := by
  simp [readyDescRx, readySlotRx_iff, readyOf, isReady, mem_rxDescs, or_and_right]

/-- The descriptors TXDMA owns. -/
theorem ownedTx_iff (s : State) (d : Word) : ownedTx s d ↔ d ∈ txOwned s := by
  unfold ownedTx txOwned
  cases h : s.txActive <;> simp [readyDescTx_iff]

/-- The descriptors RXDMA owns. -/
theorem ownedRx_iff (s : State) (d : Word) : ownedRx s d ↔ d ∈ rxOwned s := by
  unfold ownedRx rxOwned
  cases h : s.rxActive <;> simp [readyDescRx_iff]

/-- Which bytes of a Tx buffer can be shared: `LEN` of them in range, none out of range (R192). -/
theorem txSharedBuffer_len (s : State) (d : Word) :
    (txSharedBuffer s d).len =
      if txLenOk (descCtlOf (load32 s.mem d)).len then (descCtlOf (load32 s.mem d)).len.toNat else 0 := by
  unfold txSharedBuffer txBuffer
  split <;> rfl

/-- A breach noted on one of the descriptors is found. -/
theorem notedBreach_ne_none {l : List Word} {noted : Handover → Option Fault} {s : State} {d : Word} {h : Handover}
    (hd : d ∈ l) (hh : h ∈ s.handed) (he : h.desc = d) (hn : noted h ≠ none) : notedBreach l noted s ≠ none := by
  simp only [notedBreach, ne_eq, List.findSome?_eq_none_iff, not_forall]
  exact ⟨d, hd, h, hh, by simpa [he] using hn⟩

/-- A breach noted on a ready slot of the Tx ring is found. -/
theorem notedTx_ne_none {s : State} (h : notedOn s (readySlotTx s) Handover.tx) : notedTx s ≠ none := by
  obtain ⟨d, r, hd, hr, he, hn⟩ := h
  exact notedBreach_ne_none ((readySlotTx_iff s d).1 hd) hr he hn

/-- A breach noted on a ready slot of the Rx ring is found. -/
theorem notedRx_ne_none {s : State} (h : notedOn s (readySlotRx s) Handover.rx) : notedRx s ≠ none := by
  obtain ⟨d, r, hd, hr, he, hn⟩ := h
  exact notedBreach_ne_none ((readySlotRx_iff s d).1 hd) hr he hn

/-- A breach noted on a ready descriptor of the Tx ring is found at its activation. -/
theorem startBreachTx_ne_none {s : State} (h : notedOn s (readyDescTx s) Handover.tx) : startBreachTx s ≠ none := by
  obtain ⟨d, r, hd, hr, he, hn⟩ := h
  exact notedBreach_ne_none ((readyDescTx_iff s d).1 hd) hr he hn

/-- A breach noted on a ready descriptor of the Rx ring is found at its activation. -/
theorem startBreachRx_ne_none {s : State} (h : notedOn s (readyDescRx s) Handover.rx) : startBreachRx s ≠ none := by
  obtain ⟨d, r, hd, hr, he, hn⟩ := h
  exact notedBreach_ne_none ((readyDescRx_iff s d).1 hd) hr he hn

/-- When the contract holds: no breach noted on either active ring, and nothing overlaps. -/
theorem contractBreach_eq_none (s : State) :
    contractBreach s = none ↔
      (s.txActive = true → notedTx s = none) ∧ (s.rxActive = true → notedRx s = none) ∧ sharingOk s = true := by
  unfold contractBreach
  cases s.txActive <;> cases s.rxActive <;> cases sharingOk s <;> simp

/-- A footprint that meets what the rings hold is not apart from them. -/
theorem footprintApart_false {s : State} {a b : Span} (ha : a ∈ ppFootprint s) (hb : b ∈ heldSpans s)
    (hm : bytesMeet a.start a.len b.start b.len) : footprintApart s = false := by
  simp only [footprintApart, List.all_eq_false]
  exact ⟨a, ha, by simp [(meetsAny_iff a _).2 ⟨b, hb, hm⟩]⟩

/-- The buffers of ready descriptors are always held against a footprint (R96). -/
theorem buffers_mem_heldSpans (s : State) :
    (∀ d ∈ txHeld s, txBuffer s d ∈ heldSpans s) ∧ ∀ d ∈ rxHeld s, rxBuffer s d ∈ heldSpans s := by
  unfold heldSpans
  exact ⟨fun d h => by simp [List.mem_map_of_mem h], fun d h => by simp [List.mem_map_of_mem h]⟩

/-- A command that will not access its footprint is held to the named buffers alone (R222, R96). -/
theorem heldSpans_of_no_access {s : State} (h : ppAccesses s = false) :
    heldSpans s = (txHeld s).map (txBuffer s) ++ (rxHeld s).map (rxBuffer s) := by
  simp [heldSpans, h]

/-- A broken contract is found. -/
theorem contractBreach_ne_none {s : State} (h : contractBroken s) : contractBreach s ≠ none := by
  intro hn
  obtain ⟨htx, hrx, hshare⟩ := (contractBreach_eq_none s).1 hn
  rcases h with ⟨ha, hn⟩ | ⟨ha, hn⟩ | ⟨i, j, a, b, hij, ha, hb, hm⟩ | ⟨a, b, ha, hb, hm⟩
  · exact notedTx_ne_none hn (htx ha)
  · exact notedRx_ne_none hn (hrx ha)
  · simp [sharingOk, pairwiseApart_false hij ha hb hm] at hshare
  · simp [sharingOk, footprintApart_false ha hb hm] at hshare

/-- When a host read keeps the contract. -/
theorem hostReadBreach_eq_none (a : Span) (s : State) :
    hostReadBreach a s = none ↔ meetsAny a (ownedBuffers s) = false ∧ meetsAny a (ppFootprint s) = false := by
  unfold hostReadBreach
  cases meetsAny a (ownedBuffers s) <;> cases meetsAny a (ppFootprint s) <;> simp

/-- When a host store keeps the contract. -/
theorem hostStoreBreach_eq_none (a : Span) (s : State) :
    hostStoreBreach a s = none ↔
      meetsAny a (ownedDescs s ++ ownedBuffers s) = false ∧ meetsAny a (ppFootprint s) = false ∧
        footprintApart s = true := by
  unfold hostStoreBreach
  cases meetsAny a (ownedDescs s ++ ownedBuffers s) <;> cases meetsAny a (ppFootprint s) <;>
    cases footprintApart s <;> simp

/-- A store to word 1 alone is noted on the hand-over, for either ring. -/
theorem Handover.afterStore_word1 (s : State) (a : Span) (h : Handover) (hw : a.overlaps (word1Span h.desc) = true) :
    (h.afterStore s a).desc = h.desc ∧ (h.afterStore s a).word1Since = true ∧ (h.afterStore s a).tx ≠ none ∧
      (h.afterStore s a).rx ≠ none := by
  unfold Handover.afterStore Handover.mark
  cases htx : h.tx <;> cases hrx : h.rx <;> simp [hw]

/-- A second store to word 0 is noted, for either ring as it is now. -/
theorem Handover.again_noted (s : State) (a : Span) (h : Handover) :
    (h.again s a).desc = h.desc ∧ (h.again s a).tx ≠ none ∧ (h.again s a).rx ≠ none := by
  unfold Handover.again Handover.mark
  cases htx : h.tx <;> cases hrx : h.rx <;> simp

/-- Only a whole word 0 stored after word 1 builds a descriptor anew; a partial one keeps what was noted. -/
theorem Handover.again_partial (s : State) (a : Span) (h : Handover) (hp : a.covers ⟨h.desc, 4⟩ = false) :
    (h.again s a).rxAnew ≠ none ∧ (h.again s a).txAnew ≠ none := by
  unfold Handover.again Handover.mark
  cases hrx : h.rxAnew <;> cases htx : h.txAnew <;> simp [hp]

/-- R322: a ready descriptor of a Tx ring with a place is not built anew by any store that leaves it ready. -/
theorem Handover.again_of_txHeld {s : State} (a : Span) {h : Handover} (hd : h.desc ∈ txHeld s) :
    (h.again s a).txAnew ≠ none := by
  unfold Handover.again Handover.mark
  cases htx : h.txAnew <;> simp [hd]

/-- A record in force stays in force. -/
theorem mem_inForce {s : State} {h : Handover} (hm : h ∈ s.handed) (ho : isReady s h.desc = true) : h ∈ inForce s := by
  simp [inForce, hm, ho]

/-- A breach once noted is never lost by a further note. -/
theorem Handover.mark_keeps (h : Handover) (tx rx : Bool) (f : Fault) :
    (h.mark tx rx f).desc = h.desc ∧ (h.tx ≠ none → (h.mark tx rx f).tx = h.tx) ∧
      (h.rx ≠ none → (h.mark tx rx f).rx = h.rx) ∧ (tx = true → (h.mark tx rx f).tx ≠ none) ∧
      (rx = true → (h.mark tx rx f).rx ≠ none) := by
  unfold Handover.mark
  cases htx : h.tx <;> cases hrx : h.rx <;> cases tx <;> cases rx <;> simp

end Sys2Proof.Machine
end

