-- ==== Sys2Proof/Laws/Engines.lean ====
section
/-! SUPPORT. What the receive operation, the transmit step and the fetch of a turn can do, said once each. -/

namespace Sys2Proof.Machine

/-- The tests of `receive(f)` before the descriptor (R206, R207). -/
theorem rxScreen_cases (f : List Byte) (s : State) :
    (s.rxActive = false ∧ rxScreen f s = some (count .rxNodesc s)) ∨
    (s.rxActive = true ∧ f.length > s.rxmax.toNat ∧ rxScreen f s = some (count .rxOversize s)) ∨
    (s.rxActive = true ∧ f.length ≤ s.rxmax.toNat ∧ rxScreen f s = none) := by
  cases h : s.rxActive with
  | false => exact .inl ⟨rfl, by simp [rxScreen, h]⟩
  | true =>
    by_cases hl : f.length > s.rxmax.toNat
    · exact .inr (.inl ⟨rfl, hl, by simp [rxScreen, h, hl]⟩)
    · exact .inr (.inr ⟨rfl, by omega, by simp [rxScreen, h, hl]⟩)

/-- Storing a frame (R208) or a bus error (R211). -/
theorem rxStore_cases (f : List Byte) (c : DescCtl) (buf : Word) (s : State) :
    (admitted s.platform buf f.length = false ∧ rxStore f c buf s = none) ∨
    (admitted s.platform buf f.length = true ∧ rxStore f c buf s =
      some
        { setEventIf c.ioc .rxf (count .rxStored s) with
          mem := store32 (storeBytes s.mem buf f) s.rdcur (rxDoneWord (descWord true c) f.length)
          rdcur := nextDesc s.rdsr s.rdcur c.wrap }) := by
  unfold rxStore
  split
  · rename_i h; exact .inr ⟨h, rfl⟩
  · rename_i h; exact .inl ⟨by simpa using h, rfl⟩

/-- What the loopback path can answer (R196): dropped by the first tests, stopped by a descriptor that is not ready,
stored, or a bus error. -/
theorem loopbackReceive_cases (f : List Byte) (s : State) :
    (∃ t, rxScreen f s = some t ∧ loopbackReceive f s = some t) ∨
    (rxScreen f s = none ∧ admitted s.platform s.rdcur 4 = true ∧ ownBit (load32 s.mem s.rdcur) = false ∧
      loopbackReceive f s = some (rxStop s)) ∨
    (∃ t, rxScreen f s = none ∧ admitted s.platform s.rdcur 4 = true ∧ ownBit (load32 s.mem s.rdcur) = true ∧
      rxStore f (descCtlOf (load32 s.mem s.rdcur)) (load32 s.mem (s.rdcur + 4#32)) s = some t ∧
      loopbackReceive f s = some t) ∨
    loopbackReceive f s = none := by
  unfold loopbackReceive
  split
  · rename_i t h; exact .inl ⟨t, h, rfl⟩
  · rename_i h
    split
    · exact .inr (.inr (.inr rfl))
    · rename_i h1
      split
      · rename_i h2
        exact .inr (.inl ⟨h, by simpa using h1, by simpa using h2, rfl⟩)
      · rename_i h2
        split
        · exact .inr (.inr (.inr rfl))
        · cases hs : rxStore f (descCtlOf (load32 s.mem s.rdcur)) (load32 s.mem (s.rdcur + 4#32)) s with
          | none => exact .inr (.inr (.inr rfl))
          | some t => exact .inr (.inr (.inl ⟨t, h, by simpa using h1, by simpa using h2, rfl, rfl⟩))

/-- Handing a frame over (R191, R196). -/
theorem txDeliver_cases (f : List Byte) (s : State) :
    (s.ctrlLoop = false ∧ txDeliver f s = some { s with wireTx := s.wireTx ++ [f] }) ∨
    (s.ctrlLoop = true ∧ txDeliver f s = loopbackReceive f s) := by
  cases h : s.ctrlLoop with
  | false => exact .inl ⟨rfl, by simp [txDeliver, h]⟩
  | true => exact .inr ⟨rfl, by simp [txDeliver, h]⟩

/-- The step of TXDMA on a ready descriptor (R191, R192, R195, R196). -/
theorem txProcess_cases (c : DescCtl) (buf : Word) (s : State) :
    (txLenOk c.len = false ∧ txProcess c buf s = txReject c s) ∨
    (txLenOk c.len = true ∧ txProcess c buf s = busError s) ∨
    (∃ t, txLenOk c.len = true ∧ admitted s.platform buf c.len.toNat = true ∧
      txDeliver (loadBytes s.mem buf c.len.toNat) s = some t ∧ txProcess c buf s = txFinish c t) := by
  cases hl : txLenOk c.len with
  | false => exact .inl ⟨rfl, by simp [txProcess, hl]⟩
  | true =>
    cases ha : admitted s.platform buf c.len.toNat with
    | false => exact .inr (.inl ⟨rfl, by simp [txProcess, hl, ha]⟩)
    | true =>
      cases hd : txDeliver (loadBytes s.mem buf c.len.toNat) s with
      | none => exact .inr (.inl ⟨rfl, by simp [txProcess, hl, ha, hd]⟩)
      | some t => exact .inr (.inr ⟨t, rfl, rfl, rfl, by simp [txProcess, hl, ha, hd]⟩)

/-- What the fetch of a descriptor can answer (R358): a bus error, a stop because the host has broken its contract, or
the operation the descriptor decodes to, with the second word read only if the descriptor is ready. -/
theorem fetchDesc_cases (d : Word) (dec : Word → Word → Instr) (s : State) :
    fetchDesc d dec s = .settled (busError s) ∨
    (admitted s.platform d 4 = true ∧ ∃ f, contractBreach s = some f ∧ fetchDesc d dec s = .stop f) ∨
    (admitted s.platform d 4 = true ∧ ownBit (load32 s.mem d) = false ∧ contractBreach s = none ∧
      fetchDesc d dec s = .run (dec (load32 s.mem d) 0#32) s) ∨
    (admitted s.platform d 4 = true ∧ admitted s.platform (d + 4#32) 4 = true ∧ ownBit (load32 s.mem d) = true ∧
      contractBreach s = none ∧ fetchDesc d dec s = .run (dec (load32 s.mem d) (load32 s.mem (d + 4#32))) s) := by
  cases h1 : admitted s.platform d 4 with
  | false => exact .inl (by simp [fetchDesc, h1])
  | true =>
    cases h2 : ownBit (load32 s.mem d) with
    | false =>
      cases hc : contractBreach s with
      | some f => exact .inr (.inl ⟨rfl, f, rfl, by simp [fetchDesc, isReady, h1, h2, hc]⟩)
      | none => exact .inr (.inr (.inl ⟨rfl, rfl, rfl, by simp [fetchDesc, isReady, h1, h2, hc]⟩))
    | true =>
      cases h3 : admitted s.platform (d + 4#32) 4 with
      | false => exact .inl (by simp [fetchDesc, isReady, h1, h2, h3])
      | true =>
        cases hc : contractBreach s with
        | some f => exact .inr (.inl ⟨rfl, f, rfl, by simp [fetchDesc, isReady, h1, h2, h3, hc]⟩)
        | none => exact .inr (.inr (.inr ⟨rfl, rfl, rfl, rfl, by simp [fetchDesc, isReady, h1, h2, h3, hc]⟩))

/-- What a host load can answer. -/
theorem hostLoad_cases (addr : Word) (width : Width) (s : State) :
    (addr.toNat + width.bytes > 2 ^ 32 ∧ hostLoad addr width s = .stop .addressSpace) ∨
    (∃ f, hostReadBreach ⟨addr, width.bytes⟩ s = some f ∧ hostLoad addr width s = .stop f) ∨
    (addr.toNat + width.bytes ≤ 2 ^ 32 ∧ hostReadBreach ⟨addr, width.bytes⟩ s = none ∧
      hostLoad addr width s =
        .settled { readReg (loadWidth s.mem addr width) s with
          handed := handedAfterRead s ⟨addr, width.bytes⟩ }) := by
  unfold hostLoad
  split
  · rename_i h; exact .inl ⟨h, rfl⟩
  · rename_i h
    split
    · rename_i f hf; exact .inr (.inl ⟨f, hf, rfl⟩)
    · rename_i hf; exact .inr (.inr ⟨by omega, hf, rfl⟩)

/-- What a host store can answer. -/
theorem hostStoreBytes_cases (addr : Word) (bytes : List Byte) (s : State) :
    (addr.toNat + bytes.length > 2 ^ 32 ∧ hostStoreBytes addr bytes s = .stop .addressSpace) ∨
    (∃ f, hostStoreBreach ⟨addr, bytes.length⟩ s = some f ∧ hostStoreBytes addr bytes s = .stop f) ∨
    (addr.toNat + bytes.length ≤ 2 ^ 32 ∧ hostStoreBreach ⟨addr, bytes.length⟩ s = none ∧
      hostStoreBytes addr bytes s =
        .settled { s with
          mem := storeBytes s.mem addr bytes
          handed := handedAfterStore s ⟨addr, bytes.length⟩ (storeBytes s.mem addr bytes) }) := by
  unfold hostStoreBytes
  split
  · rename_i h; exact .inl ⟨h, rfl⟩
  · rename_i h
    split
    · rename_i f hf; exact .inr (.inl ⟨f, hf, rfl⟩)
    · rename_i hf; exact .inr (.inr ⟨by omega, hf, rfl⟩)

/-- A read activates nothing and sets nothing up: the contract has no interest in it. -/
theorem decodeMmio_read_quiet {offset : BitVec 12} {i : Instr} (h : decodeMmio offset .read = .ok i) (s : State) :
    accessBreach i s = none ∧ handedAfterAccess i s = s.handed := by
  unfold decodeMmio at h
  split at h
  all_goals first
    | (obtain rfl := Decoded.ok.inj h; exact ⟨rfl, rfl⟩)
    | (split at h <;> first | (obtain rfl := Decoded.ok.inj h; exact ⟨rfl, rfl⟩) | cases h)

/-- What a register access can answer. -/
theorem fetchAccess_cases (addr : Word) (width : Width) (a : RegAccess) (s : State) :
    fetchAccess addr width a s = .refuse .registerAccess ∨
    (∃ i, width = .w32 ∧ inWindow s.platform addr.toNat = true ∧
      decodeMmio ((addr - s.platform.base).extractLsb' 0 12) a = .ok i ∧
      ((∃ f, accessBreach i s = some f ∧ fetchAccess addr width a s = .stop f) ∨
        (accessBreach i s = none ∧
          fetchAccess addr width a s = .run i { s with handed := handedAfterAccess i s }))) := by
  unfold fetchAccess
  split
  · exact .inl rfl
  · rename_i h
    simp only [not_or, Decidable.not_not, Bool.not_eq_true', Bool.not_eq_false, Bool.or_eq_true, decide_eq_true_eq,
      ne_eq] at h
    split
    · rename_i i hi
      refine .inr ⟨i, h.1, h.2, hi, ?_⟩
      cases hb : accessBreach i s with
      | some f => exact .inl ⟨f, rfl, rfl⟩
      | none => exact .inr ⟨rfl, rfl⟩
    · exact .inl rfl

end Sys2Proof.Machine
end

