-- ==== Sys2Proof/Laws/Memory.lean ====
section
/-! SUPPORT. The laws of system memory: a write is read back, other bytes stay, every memory operation keeps the
canonical form, and canonical memories with the same reads are equal. -/

namespace Sys2Proof.Machine

/-! ## One byte -/

@[simp] theorem loadByte_nil (a : Nat) : loadByte [] a = unlistedByte := rfl

theorem loadByte_consByte (k : Nat) (b : Byte) (t : Memory) (a : Nat) (h : b = unlistedByte → a = k → loadByte t a = b) :
    loadByte (consByte k b t) a = if k = a then b else loadByte t a := by
  unfold consByte
  split
  · split
    · rename_i hb hk; exact h hb hk.symm
    · rfl
  · rfl

theorem loadByte_consByte_ne {k a : Nat} (b : Byte) (t : Memory) (h : a ≠ k) :
    loadByte (consByte k b t) a = loadByte t a := by
  rw [loadByte_consByte _ _ _ _ (fun _ e => absurd e h), if_neg (Ne.symm h)]

/-- A write leaves every other byte alone. -/
theorem loadByte_storeByte_ne (m : Memory) {k a : Nat} (b : Byte) (h : a ≠ k) :
    loadByte (storeByte m k b) a = loadByte m a := by
  induction m with
  | nil => exact loadByte_consByte_ne b [] h
  | cons e t ih =>
    obtain ⟨k', c⟩ := e
    simp only [storeByte]
    split
    · exact loadByte_consByte_ne b _ h
    · split
      · rename_i hk; subst hk
        rw [loadByte_consByte_ne b _ h]
        simp [loadByte, Ne.symm h]
      · simp only [loadByte, ih]

/-- Below its first address a canonical memory lists nothing. -/
theorem loadByte_of_lt {low : Nat} {m : Memory} (hm : memoryWfFrom low m = true) {a : Nat} (h : a < low) :
    loadByte m a = unlistedByte := by
  induction m generalizing low with
  | nil => rfl
  | cons e t ih =>
    obtain ⟨k, c⟩ := e
    simp only [memoryWfFrom, Bool.and_eq_true, decide_eq_true_eq] at hm
    have hk : k ≠ a := by omega
    simp only [loadByte, if_neg hk]
    exact ih hm.2 (by omega)

/-- A write is read back, if the memory is canonical. -/
theorem loadByte_storeByte_self {low : Nat} {m : Memory} (hm : memoryWfFrom low m = true) (a : Nat) (b : Byte) :
    loadByte (storeByte m a b) a = b := by
  induction m generalizing low with
  | nil => simp only [storeByte, consByte]; split <;> simp_all [loadByte]
  | cons e t ih =>
    obtain ⟨k, c⟩ := e
    have hm' := hm
    simp only [memoryWfFrom, Bool.and_eq_true, decide_eq_true_eq] at hm
    simp only [storeByte]
    split
    · rename_i hlt
      rw [loadByte_consByte, if_pos rfl]
      intro hb _
      simp only [loadByte, if_neg (show ¬k = a by omega)]
      rw [hb]; exact loadByte_of_lt hm.2 (by omega)
    · split
      · rename_i hk
        rw [loadByte_consByte, if_pos rfl]
        intro hb _
        rw [hb]; exact loadByte_of_lt hm.2 (by omega)
      · rename_i hk
        simp only [loadByte, if_neg (show ¬k = a from fun e => hk e.symm)]
        exact ih hm.2

theorem memoryWfFrom_mono {low low' : Nat} {m : Memory} (h : memoryWfFrom low m = true) (hle : low' ≤ low) :
    memoryWfFrom low' m = true := by
  cases m with
  | nil => rfl
  | cons e t =>
    simp only [memoryWfFrom, Bool.and_eq_true, decide_eq_true_eq] at h ⊢
    exact ⟨⟨⟨by omega, h.1.1.2⟩, h.1.2⟩, h.2⟩

theorem memoryWfFrom_consByte {low a : Nat} {b : Byte} {t : Memory} (hl : low ≤ a) (ha : a < 2 ^ 32)
    (ht : memoryWfFrom (a + 1) t = true) : memoryWfFrom low (consByte a b t) = true := by
  unfold consByte
  split
  · exact memoryWfFrom_mono ht (by omega)
  · rename_i hb
    simp only [memoryWfFrom, Bool.and_eq_true, decide_eq_true_eq, bne_iff_ne]
    exact ⟨⟨⟨hl, ha⟩, hb⟩, ht⟩

/-- Writing one byte keeps the canonical form. -/
theorem memoryWfFrom_storeByte {low : Nat} {m : Memory} (hm : memoryWfFrom low m = true) {a : Nat} (hl : low ≤ a)
    (ha : a < 2 ^ 32) (b : Byte) : memoryWfFrom low (storeByte m a b) = true := by
  induction m generalizing low with
  | nil => exact memoryWfFrom_consByte hl ha rfl
  | cons e t ih =>
    obtain ⟨k, c⟩ := e
    have hm' := hm
    simp only [memoryWfFrom, Bool.and_eq_true, decide_eq_true_eq, bne_iff_ne] at hm
    obtain ⟨⟨⟨h1, h2⟩, h3⟩, h4⟩ := hm
    simp only [storeByte]
    split
    · rename_i hlt
      apply memoryWfFrom_consByte hl ha
      simp only [memoryWfFrom, Bool.and_eq_true, decide_eq_true_eq, bne_iff_ne]
      exact ⟨⟨⟨by omega, h2⟩, h3⟩, h4⟩
    · split
      · rename_i hk; subst hk; exact memoryWfFrom_consByte hl ha h4
      · simp only [memoryWfFrom, Bool.and_eq_true, decide_eq_true_eq, bne_iff_ne]
        exact ⟨⟨⟨h1, h2⟩, h3⟩, ih h4 (by omega)⟩

theorem memoryWf_storeByte {m : Memory} (hm : memoryWf m = true) (a : Word) (b : Byte) :
    memoryWf (storeByte m a.toNat b) = true := memoryWfFrom_storeByte hm (Nat.zero_le _) a.isLt b

/-- Two canonical memories with the same reads are equal. -/
theorem memoryWfFrom_ext {low : Nat} {m m' : Memory} (h : memoryWfFrom low m = true) (h' : memoryWfFrom low m' = true)
    (e : ∀ a, loadByte m a = loadByte m' a) : m = m' := by
  induction m generalizing low m' with
  | nil =>
    cases m' with
    | nil => rfl
    | cons x t =>
      obtain ⟨k, c⟩ := x
      simp only [memoryWfFrom, Bool.and_eq_true, decide_eq_true_eq, bne_iff_ne] at h'
      have := e k
      simp only [loadByte, if_pos] at this
      exact absurd this.symm h'.1.2
  | cons x t ih =>
    obtain ⟨k, c⟩ := x
    have hx := h
    simp only [memoryWfFrom, Bool.and_eq_true, decide_eq_true_eq, bne_iff_ne] at h
    cases m' with
    | nil =>
      have := e k
      simp only [loadByte, if_pos] at this
      exact absurd this h.1.2
    | cons x' t' =>
      obtain ⟨k', c'⟩ := x'
      have hx' := h'
      simp only [memoryWfFrom, Bool.and_eq_true, decide_eq_true_eq, bne_iff_ne] at h'
      have hk : k = k' := by
        rcases Nat.lt_trichotomy k k' with hlt | heq | hgt
        · have e1 := e k
          rw [show loadByte ((k', c') :: t') k = unlistedByte from
            loadByte_of_lt (low := k') (by
              simp only [memoryWfFrom, Bool.and_eq_true, decide_eq_true_eq, bne_iff_ne]
              exact ⟨⟨⟨Nat.le_refl _, h'.1.1.2⟩, h'.1.2⟩, h'.2⟩) hlt] at e1
          simp only [loadByte, if_pos] at e1
          exact absurd e1 h.1.2
        · exact heq
        · have e1 := e k'
          rw [show loadByte ((k, c) :: t) k' = unlistedByte from
            loadByte_of_lt (low := k) (by
              simp only [memoryWfFrom, Bool.and_eq_true, decide_eq_true_eq, bne_iff_ne]
              exact ⟨⟨⟨Nat.le_refl _, h.1.1.2⟩, h.1.2⟩, h.2⟩) hgt] at e1
          simp only [loadByte, if_pos] at e1
          exact absurd e1.symm h'.1.2
      subst hk
      have hc : c = c' := by have := e k; simpa [loadByte] using this
      subst hc
      have ht : t = t' := by
        apply ih h.2 h'.2
        intro a
        by_cases ha : k = a
        · subst ha
          rw [loadByte_of_lt h.2 (by omega), loadByte_of_lt h'.2 (by omega)]
        · have := e a; simpa [loadByte, ha] using this
      rw [ht]

theorem memoryWf_ext {m m' : Memory} (h : memoryWf m = true) (h' : memoryWf m' = true)
    (e : ∀ a, loadByte m a = loadByte m' a) : m = m' := memoryWfFrom_ext h h' e

/-! ## Byte lists -/

/-- Every store of bytes keeps the canonical form. -/
theorem memoryWf_storeBytes {m : Memory} (hm : memoryWf m = true) (a : Word) (bs : List Byte) :
    memoryWf (storeBytes m a bs) = true := by
  induction bs generalizing m a with
  | nil => exact hm
  | cons b t ih => exact ih (memoryWf_storeByte hm a b) _

theorem memoryWf_store32 {m : Memory} (hm : memoryWf m = true) (a v : Word) : memoryWf (store32 m a v) = true :=
  memoryWf_storeBytes hm _ _

theorem memoryWf_put8 {m : Memory} (hm : memoryWf m = true) (a : Word) (v : Byte) : memoryWf (put8 a v m) = true :=
  memoryWf_storeBytes hm _ _

theorem memoryWf_putBe16 {m : Memory} (hm : memoryWf m = true) (a : Word) (v : Half) :
    memoryWf (putBe16 a v m) = true := memoryWf_storeBytes hm _ _

theorem memoryWf_putBe32 {m : Memory} (hm : memoryWf m = true) (a : Word) (v : Word) :
    memoryWf (putBe32 a v m) = true := memoryWf_storeBytes hm _ _

theorem memoryWf_putMac {m : Memory} (hm : memoryWf m = true) (a : Word) (v : Mac) : memoryWf (putMac a v m) = true :=
  memoryWf_storeBytes hm _ _

/-- The memory of the reset state is canonical. -/
theorem memoryWf_reset : memoryWf State.reset.mem = true := rfl

theorem word_add_ofNat_succ (a : Word) (i : Nat) :
    a + 1#32 + BitVec.ofNat 32 i = a + BitVec.ofNat 32 (i + 1) := by
  rw [BitVec.add_assoc]; congr 1; rw [Nat.add_comm, BitVec.ofNat_add]

/-- A store of bytes leaves every other byte alone. -/
theorem loadByte_storeBytes_ne (m : Memory) (a : Word) (bs : List Byte) (x : Nat)
    (h : ∀ i, i < bs.length → x ≠ (a + BitVec.ofNat 32 i).toNat) : loadByte (storeBytes m a bs) x = loadByte m x := by
  induction bs generalizing m a with
  | nil => rfl
  | cons b t ih =>
    simp only [storeBytes]
    rw [ih, loadByte_storeByte_ne]
    · simpa using h 0 (by simp)
    · intro i hi
      rw [word_add_ofNat_succ]
      exact h (i + 1) (by simpa using hi)

/-- A store of at most 2^32 bytes is read back byte by byte. -/
theorem loadByte_storeBytes (m : Memory) (hm : memoryWf m = true) (a : Word) (bs : List Byte) (hl : bs.length ≤ 2 ^ 32)
    (i : Nat) (hi : i < bs.length) : loadByte (storeBytes m a bs) (a + BitVec.ofNat 32 i).toNat = bs[i] := by
  induction bs generalizing m a i with
  | nil => simp at hi
  | cons b t ih =>
    simp only [List.length_cons] at hl hi
    simp only [storeBytes]
    cases i with
    | zero =>
      rw [loadByte_storeBytes_ne]
      · simpa using loadByte_storeByte_self hm a.toNat b
      · intro j hj
        have hj' : j + 1 < 2 ^ 32 := by omega
        rw [word_add_ofNat_succ]
        intro e
        have e2 := BitVec.eq_of_toNat_eq e
        have e3 : BitVec.ofNat 32 0 = BitVec.ofNat 32 (j + 1) := by
          simpa using (add_left_cancel (a := a) e2)
        have := congrArg BitVec.toNat e3
        simp only [BitVec.toNat_ofNat] at this
        omega
    | succ j =>
      rw [← word_add_ofNat_succ a j, List.getElem_cons_succ]
      exact ih (storeByte m a.toNat b) (memoryWf_storeByte hm a b) (a + 1#32) (by omega) j (by omega)

@[simp] theorem length_loadBytes (m : Memory) (a : Word) (n : Nat) : (loadBytes m a n).length = n := by
  induction n generalizing a with
  | zero => rfl
  | succ n ih => simp [loadBytes, ih]

theorem getElem_loadBytes (m : Memory) (a : Word) (n i : Nat) (h : i < n) :
    (loadBytes m a n)[i]'(by simpa using h) = loadByte m (a + BitVec.ofNat 32 i).toNat := by
  induction n generalizing a i with
  | zero => omega
  | succ n ih =>
    cases i with
    | zero => simp [loadBytes]
    | succ i =>
      simp only [loadBytes, List.getElem_cons_succ]
      rw [ih (a + 1#32) i (by omega), word_add_ofNat_succ]

/-- A store of bytes is read back whole. -/
theorem loadBytes_storeBytes (m : Memory) (hm : memoryWf m = true) (a : Word) (bs : List Byte)
    (hl : bs.length ≤ 2 ^ 32) : loadBytes (storeBytes m a bs) a bs.length = bs := by
  apply List.ext_getElem (by simp)
  intro i h1 h2
  rw [getElem_loadBytes _ _ _ _ h2, loadByte_storeBytes m hm a bs hl i h2]

/-- Reads agree where the bytes agree. -/
theorem loadBytes_congr {m m' : Memory} (a : Word) (n : Nat)
    (h : ∀ i, i < n → loadByte m (a + BitVec.ofNat 32 i).toNat = loadByte m' (a + BitVec.ofNat 32 i).toNat) :
    loadBytes m a n = loadBytes m' a n := by
  apply List.ext_getElem (by simp)
  intro i h1 h2
  rw [getElem_loadBytes _ _ _ _ (by simpa using h1), getElem_loadBytes _ _ _ _ (by simpa using h1)]
  exact h i (by simpa using h1)

theorem loadBytes_append (m : Memory) (a : Word) (n k : Nat) :
    loadBytes m a (n + k) = loadBytes m a n ++ loadBytes m (a + BitVec.ofNat 32 n) k := by
  induction n generalizing a with
  | zero => simp [loadBytes]
  | succ n ih =>
    rw [Nat.add_right_comm]
    simp only [loadBytes, List.cons_append, ih, word_add_ofNat_succ]

theorem storeBytes_append (m : Memory) (a : Word) (bs cs : List Byte) :
    storeBytes m a (bs ++ cs) = storeBytes (storeBytes m a bs) (a + BitVec.ofNat 32 bs.length) cs := by
  induction bs generalizing m a with
  | nil => simp [storeBytes]
  | cons b t ih => simp only [List.cons_append, storeBytes, ih, List.length_cons, word_add_ofNat_succ]

/-! ## Words -/

@[simp] theorem length_leBytes4 (v : Word) : (leBytes4 v).length = 4 := rfl

@[simp] theorem ofLe4_leBytes4 (v : Word) :
    ofLe4 (v.extractLsb' 0 8) (v.extractLsb' 8 8) (v.extractLsb' 16 8) (v.extractLsb' 24 8) = v := by
  unfold ofLe4
  ext i hi
  simp only [BitVec.getElem_append, BitVec.getElem_extractLsb']
  split
  · rw [BitVec.getLsbD_eq_getElem (by omega)]; simp
  · split
    · rw [BitVec.getLsbD_eq_getElem (by omega)]; congr 1; omega
    · split
      · rw [BitVec.getLsbD_eq_getElem (by omega)]; congr 1; omega
      · rw [BitVec.getLsbD_eq_getElem (by omega)]; congr 1; omega

/-- A 32-bit store is read back (R85). -/
theorem load32_store32 (m : Memory) (hm : memoryWf m = true) (a v : Word) : load32 (store32 m a v) a = v := by
  have h (i : Nat) (hi : i < 4) := loadByte_storeBytes m hm a (leBytes4 v) (by simp) i (by simpa using hi)
  have h0 := h 0 (by omega)
  have h1 := h 1 (by omega)
  have h2 := h 2 (by omega)
  have h3 := h 3 (by omega)
  simp only [leBytes4, BitVec.add_zero, List.getElem_cons_zero, List.getElem_cons_succ] at h0 h1 h2 h3
  unfold load32 store32
  simp only [leBytes4]
  rw [h0, h1, h2, h3]
  exact ofLe4_leBytes4 v

end Sys2Proof.Machine
end

