-- ==== Sys2Proof/Laws/PerInstr.lean ====
section
/-! SUPPORT. The per-instruction family `EncodedLength`: every operation is encoded in the fixed length of its format
(spec 30_encoding R110). -/

namespace Sys2Proof

/-- The fixed length of a format in bytes (R110); the 45 bits of an `MMIO` access take six (log 7). -/
def formatLength : Format → Nat
  | .mmio => 6
  | .txDesc => 8
  | .rxDesc => 8
  | .mmfr => 4
  | .ppCmd => 4

/-- The encoding of `i` has the length of its format. -/
def Laws.EncodedLength.Statement (i : Instr) : Prop := (encode i).length = formatLength (formatOf i)

theorem Laws.EncodedLength.ctrl (access : RegAccess) : Laws.EncodedLength.Statement (.ctrl access) := rfl
theorem Laws.EncodedLength.eir (access : RegAccess) : Laws.EncodedLength.Statement (.eir access) := rfl
theorem Laws.EncodedLength.eimr (access : RegAccess) : Laws.EncodedLength.Statement (.eimr access) := rfl
theorem Laws.EncodedLength.status (access : RegAccess) : Laws.EncodedLength.Statement (.status access) := rfl
theorem Laws.EncodedLength.tdsr (access : RegAccess) : Laws.EncodedLength.Statement (.tdsr access) := rfl
theorem Laws.EncodedLength.rdsr (access : RegAccess) : Laws.EncodedLength.Statement (.rdsr access) := rfl
theorem Laws.EncodedLength.tdar (access : RegAccess) : Laws.EncodedLength.Statement (.tdar access) := rfl
theorem Laws.EncodedLength.rdar (access : RegAccess) : Laws.EncodedLength.Statement (.rdar access) := rfl
theorem Laws.EncodedLength.rxmax (access : RegAccess) : Laws.EncodedLength.Statement (.rxmax access) := rfl
theorem Laws.EncodedLength.maclo (access : RegAccess) : Laws.EncodedLength.Statement (.maclo access) := rfl
theorem Laws.EncodedLength.machi (access : RegAccess) : Laws.EncodedLength.Statement (.machi access) := rfl
theorem Laws.EncodedLength.tdcur (access : RegAccess) : Laws.EncodedLength.Statement (.tdcur access) := rfl
theorem Laws.EncodedLength.rdcur (access : RegAccess) : Laws.EncodedLength.Statement (.rdcur access) := rfl
theorem Laws.EncodedLength.mmfr (access : RegAccess) : Laws.EncodedLength.Statement (.mmfr access) := rfl
theorem Laws.EncodedLength.cntTxSent (access : RegAccess) : Laws.EncodedLength.Statement (.cntTxSent access) := rfl
theorem Laws.EncodedLength.cntTxErr (access : RegAccess) : Laws.EncodedLength.Statement (.cntTxErr access) := rfl
theorem Laws.EncodedLength.cntRxStored (access : RegAccess) : Laws.EncodedLength.Statement (.cntRxStored access) := rfl
theorem Laws.EncodedLength.cntRxNodesc (access : RegAccess) : Laws.EncodedLength.Statement (.cntRxNodesc access) := rfl
theorem Laws.EncodedLength.cntRxOversize (access : RegAccess) : Laws.EncodedLength.Statement (.cntRxOversize access) := rfl
theorem Laws.EncodedLength.cntL2ArpAcc (access : RegAccess) : Laws.EncodedLength.Statement (.cntL2ArpAcc access) := rfl
theorem Laws.EncodedLength.cntL2Ip4Acc (access : RegAccess) : Laws.EncodedLength.Statement (.cntL2Ip4Acc access) := rfl
theorem Laws.EncodedLength.cntL2ArpDrop (access : RegAccess) : Laws.EncodedLength.Statement (.cntL2ArpDrop access) := rfl
theorem Laws.EncodedLength.cntL2Ip4Drop (access : RegAccess) : Laws.EncodedLength.Statement (.cntL2Ip4Drop access) := rfl
theorem Laws.EncodedLength.cntL2OtherDrop (access : RegAccess) : Laws.EncodedLength.Statement (.cntL2OtherDrop access) := rfl
theorem Laws.EncodedLength.cntArpBad (access : RegAccess) : Laws.EncodedLength.Statement (.cntArpBad access) := rfl
theorem Laws.EncodedLength.cntIp4Badhdr (access : RegAccess) : Laws.EncodedLength.Statement (.cntIp4Badhdr access) := rfl
theorem Laws.EncodedLength.cntIp4Badcsum (access : RegAccess) : Laws.EncodedLength.Statement (.cntIp4Badcsum access) := rfl
theorem Laws.EncodedLength.cntIp4Baddst (access : RegAccess) : Laws.EncodedLength.Statement (.cntIp4Baddst access) := rfl
theorem Laws.EncodedLength.cntIp4Badproto (access : RegAccess) : Laws.EncodedLength.Statement (.cntIp4Badproto access) := rfl
theorem Laws.EncodedLength.cntIcmpDrop (access : RegAccess) : Laws.EncodedLength.Statement (.cntIcmpDrop access) := rfl
theorem Laws.EncodedLength.cntUdpBadlen (access : RegAccess) : Laws.EncodedLength.Statement (.cntUdpBadlen access) := rfl
theorem Laws.EncodedLength.cntUdpNoport (access : RegAccess) : Laws.EncodedLength.Statement (.cntUdpNoport access) := rfl
theorem Laws.EncodedLength.ppCmd (access : RegAccess) : Laws.EncodedLength.Statement (.ppCmd access) := rfl
theorem Laws.EncodedLength.ppStatus (access : RegAccess) : Laws.EncodedLength.Statement (.ppStatus access) := rfl
theorem Laws.EncodedLength.p0 (access : RegAccess) : Laws.EncodedLength.Statement (.p0 access) := rfl
theorem Laws.EncodedLength.p1 (access : RegAccess) : Laws.EncodedLength.Statement (.p1 access) := rfl
theorem Laws.EncodedLength.p2 (access : RegAccess) : Laws.EncodedLength.Statement (.p2 access) := rfl
theorem Laws.EncodedLength.p3 (access : RegAccess) : Laws.EncodedLength.Statement (.p3 access) := rfl
theorem Laws.EncodedLength.p4 (access : RegAccess) : Laws.EncodedLength.Statement (.p4 access) := rfl
theorem Laws.EncodedLength.p5 (access : RegAccess) : Laws.EncodedLength.Statement (.p5 access) := rfl
theorem Laws.EncodedLength.p6 (access : RegAccess) : Laws.EncodedLength.Statement (.p6 access) := rfl
theorem Laws.EncodedLength.p7 (access : RegAccess) : Laws.EncodedLength.Statement (.p7 access) := rfl
theorem Laws.EncodedLength.ip4Addr (access : RegAccess) : Laws.EncodedLength.Statement (.ip4Addr access) := rfl
theorem Laws.EncodedLength.ip4Mask (access : RegAccess) : Laws.EncodedLength.Statement (.ip4Mask access) := rfl
theorem Laws.EncodedLength.ip4Gw (access : RegAccess) : Laws.EncodedLength.Statement (.ip4Gw access) := rfl
theorem Laws.EncodedLength.ip4Ttl (access : RegAccess) : Laws.EncodedLength.Statement (.ip4Ttl access) := rfl
theorem Laws.EncodedLength.arpSel (access : RegAccess) : Laws.EncodedLength.Statement (.arpSel access) := rfl
theorem Laws.EncodedLength.arpIp (access : RegAccess) : Laws.EncodedLength.Statement (.arpIp access) := rfl
theorem Laws.EncodedLength.arpMaclo (access : RegAccess) : Laws.EncodedLength.Statement (.arpMaclo access) := rfl
theorem Laws.EncodedLength.arpMachi (access : RegAccess) : Laws.EncodedLength.Statement (.arpMachi access) := rfl
theorem Laws.EncodedLength.arpTs (access : RegAccess) : Laws.EncodedLength.Statement (.arpTs access) := rfl
theorem Laws.EncodedLength.udpPort0 (access : RegAccess) : Laws.EncodedLength.Statement (.udpPort0 access) := rfl
theorem Laws.EncodedLength.udpPort1 (access : RegAccess) : Laws.EncodedLength.Statement (.udpPort1 access) := rfl
theorem Laws.EncodedLength.udpPort2 (access : RegAccess) : Laws.EncodedLength.Statement (.udpPort2 access) := rfl
theorem Laws.EncodedLength.udpPort3 (access : RegAccess) : Laws.EncodedLength.Statement (.udpPort3 access) := rfl
theorem Laws.EncodedLength.udpPort4 (access : RegAccess) : Laws.EncodedLength.Statement (.udpPort4 access) := rfl
theorem Laws.EncodedLength.udpPort5 (access : RegAccess) : Laws.EncodedLength.Statement (.udpPort5 access) := rfl
theorem Laws.EncodedLength.udpPort6 (access : RegAccess) : Laws.EncodedLength.Statement (.udpPort6 access) := rfl
theorem Laws.EncodedLength.udpPort7 (access : RegAccess) : Laws.EncodedLength.Statement (.udpPort7 access) := rfl
theorem Laws.EncodedLength.reserved (offset : BitVec 12) (access : RegAccess) : Laws.EncodedLength.Statement (.reserved offset access) := rfl
theorem Laws.EncodedLength.txd (ctl : DescCtl) (buf : Word) : Laws.EncodedLength.Statement (.txd ctl buf) := rfl
theorem Laws.EncodedLength.txdStop (ctl : DescCtl) : Laws.EncodedLength.Statement (.txdStop ctl) := rfl
theorem Laws.EncodedLength.rxd (ctl : DescCtl) (buf : Word) : Laws.EncodedLength.Statement (.rxd ctl buf) := rfl
theorem Laws.EncodedLength.rxdStop (ctl : DescCtl) : Laws.EncodedLength.Statement (.rxdStop ctl) := rfl
theorem Laws.EncodedLength.mdioRead (pa ra : BitVec 5) (ta : BitVec 2) (data : Half) : Laws.EncodedLength.Statement (.mdioRead pa ra ta data) := rfl
theorem Laws.EncodedLength.mdioWrite (pa ra : BitVec 5) (ta : BitVec 2) (data : Half) : Laws.EncodedLength.Statement (.mdioWrite pa ra ta data) := rfl
theorem Laws.EncodedLength.mmfrNoOperation (word : Word) : Laws.EncodedLength.Statement (.mmfrNoOperation word) := rfl
theorem Laws.EncodedLength.nop : Laws.EncodedLength.Statement .nop := rfl
theorem Laws.EncodedLength.cksum : Laws.EncodedLength.Statement .cksum := rfl
theorem Laws.EncodedLength.ethHdr : Laws.EncodedLength.Statement .ethHdr := rfl
theorem Laws.EncodedLength.arpReq : Laws.EncodedLength.Statement .arpReq := rfl
theorem Laws.EncodedLength.arpReply : Laws.EncodedLength.Statement .arpReply := rfl
theorem Laws.EncodedLength.ip4Hdr : Laws.EncodedLength.Statement .ip4Hdr := rfl
theorem Laws.EncodedLength.icmpEchoReq : Laws.EncodedLength.Statement .icmpEchoReq := rfl
theorem Laws.EncodedLength.icmpEchoReply : Laws.EncodedLength.Statement .icmpEchoReply := rfl
theorem Laws.EncodedLength.udpHdr (csum : Bool) : Laws.EncodedLength.Statement (.udpHdr csum) := rfl
theorem Laws.EncodedLength.rxClassify : Laws.EncodedLength.Statement .rxClassify := rfl
theorem Laws.EncodedLength.ip4Nexthop : Laws.EncodedLength.Statement .ip4Nexthop := rfl
theorem Laws.EncodedLength.arpResolve : Laws.EncodedLength.Statement .arpResolve := rfl
theorem Laws.EncodedLength.arpUpdate : Laws.EncodedLength.Statement .arpUpdate := rfl
theorem Laws.EncodedLength.udpBind : Laws.EncodedLength.Statement .udpBind := rfl
theorem Laws.EncodedLength.udpUnbind : Laws.EncodedLength.Statement .udpUnbind := rfl
theorem Laws.EncodedLength.ppIllegal (word : Word) : Laws.EncodedLength.Statement (.ppIllegal word) := rfl

end Sys2Proof
end

