-- ==== Sys2Proof/Laws/State.lean ====
section
/-! SUPPORT. One lemma per field of the state per shared update, each true by unfolding that update alone, so that no
proof unfolds a record update.  A field an update writes has the value it writes; every other field is unchanged. -/

namespace Sys2Proof.Machine

/-! ## `setEvent` -/

@[simp] theorem setEvent_platform (e : EventBit) (s : State) : (setEvent e s).platform = s.platform := rfl
@[simp] theorem setEvent_ctrlEn (e : EventBit) (s : State) : (setEvent e s).ctrlEn = s.ctrlEn := rfl
@[simp] theorem setEvent_ctrlLoop (e : EventBit) (s : State) : (setEvent e s).ctrlLoop = s.ctrlLoop := rfl
@[simp] theorem setEvent_eir (e : EventBit) (s : State) : (setEvent e s).eir = s.eir ||| e.mask := rfl
@[simp] theorem setEvent_eimr (e : EventBit) (s : State) : (setEvent e s).eimr = s.eimr := rfl
@[simp] theorem setEvent_txActive (e : EventBit) (s : State) : (setEvent e s).txActive = s.txActive := rfl
@[simp] theorem setEvent_rxActive (e : EventBit) (s : State) : (setEvent e s).rxActive = s.rxActive := rfl
@[simp] theorem setEvent_mdioBusy (e : EventBit) (s : State) : (setEvent e s).mdioBusy = s.mdioBusy := rfl
@[simp] theorem setEvent_ppBusy (e : EventBit) (s : State) : (setEvent e s).ppBusy = s.ppBusy := rfl
@[simp] theorem setEvent_halted (e : EventBit) (s : State) : (setEvent e s).halted = s.halted := rfl
@[simp] theorem setEvent_tdsr (e : EventBit) (s : State) : (setEvent e s).tdsr = s.tdsr := rfl
@[simp] theorem setEvent_rdsr (e : EventBit) (s : State) : (setEvent e s).rdsr = s.rdsr := rfl
@[simp] theorem setEvent_rxmax (e : EventBit) (s : State) : (setEvent e s).rxmax = s.rxmax := rfl
@[simp] theorem setEvent_maclo (e : EventBit) (s : State) : (setEvent e s).maclo = s.maclo := rfl
@[simp] theorem setEvent_machi (e : EventBit) (s : State) : (setEvent e s).machi = s.machi := rfl
@[simp] theorem setEvent_tdcur (e : EventBit) (s : State) : (setEvent e s).tdcur = s.tdcur := rfl
@[simp] theorem setEvent_rdcur (e : EventBit) (s : State) : (setEvent e s).rdcur = s.rdcur := rfl
@[simp] theorem setEvent_mmfr (e : EventBit) (s : State) : (setEvent e s).mmfr = s.mmfr := rfl
@[simp] theorem setEvent_counters (e : EventBit) (s : State) : (setEvent e s).counters = s.counters := rfl
@[simp] theorem setEvent_ppCmd (e : EventBit) (s : State) : (setEvent e s).ppCmd = s.ppCmd := rfl
@[simp] theorem setEvent_ppResult (e : EventBit) (s : State) : (setEvent e s).ppResult = s.ppResult := rfl
@[simp] theorem setEvent_p (e : EventBit) (s : State) : (setEvent e s).p = s.p := rfl
@[simp] theorem setEvent_ip4Addr (e : EventBit) (s : State) : (setEvent e s).ip4Addr = s.ip4Addr := rfl
@[simp] theorem setEvent_ip4Mask (e : EventBit) (s : State) : (setEvent e s).ip4Mask = s.ip4Mask := rfl
@[simp] theorem setEvent_ip4Gw (e : EventBit) (s : State) : (setEvent e s).ip4Gw = s.ip4Gw := rfl
@[simp] theorem setEvent_ip4Ttl (e : EventBit) (s : State) : (setEvent e s).ip4Ttl = s.ip4Ttl := rfl
@[simp] theorem setEvent_arpSel (e : EventBit) (s : State) : (setEvent e s).arpSel = s.arpSel := rfl
@[simp] theorem setEvent_arp (e : EventBit) (s : State) : (setEvent e s).arp = s.arp := rfl
@[simp] theorem setEvent_udpPort (e : EventBit) (s : State) : (setEvent e s).udpPort = s.udpPort := rfl
@[simp] theorem setEvent_mem (e : EventBit) (s : State) : (setEvent e s).mem = s.mem := rfl
@[simp] theorem setEvent_wireTx (e : EventBit) (s : State) : (setEvent e s).wireTx = s.wireTx := rfl
@[simp] theorem setEvent_phyLog (e : EventBit) (s : State) : (setEvent e s).phyLog = s.phyLog := rfl
@[simp] theorem setEvent_hostData (e : EventBit) (s : State) : (setEvent e s).hostData = s.hostData := rfl
@[simp] theorem setEvent_wireIn (e : EventBit) (s : State) : (setEvent e s).wireIn = s.wireIn := rfl
@[simp] theorem setEvent_phyIn (e : EventBit) (s : State) : (setEvent e s).phyIn = s.phyIn := rfl
@[simp] theorem setEvent_schedule (e : EventBit) (s : State) : (setEvent e s).schedule = s.schedule := rfl
@[simp] theorem setEvent_handed (e : EventBit) (s : State) : (setEvent e s).handed = s.handed := rfl
@[simp] theorem setEvent_choices (e : EventBit) (s : State) : (setEvent e s).choices = s.choices := rfl

/-! ## `count` -/

@[simp] theorem count_platform (n : CounterName) (s : State) : (count n s).platform = s.platform := rfl
@[simp] theorem count_ctrlEn (n : CounterName) (s : State) : (count n s).ctrlEn = s.ctrlEn := rfl
@[simp] theorem count_ctrlLoop (n : CounterName) (s : State) : (count n s).ctrlLoop = s.ctrlLoop := rfl
@[simp] theorem count_eir (n : CounterName) (s : State) : (count n s).eir = s.eir := rfl
@[simp] theorem count_eimr (n : CounterName) (s : State) : (count n s).eimr = s.eimr := rfl
@[simp] theorem count_txActive (n : CounterName) (s : State) : (count n s).txActive = s.txActive := rfl
@[simp] theorem count_rxActive (n : CounterName) (s : State) : (count n s).rxActive = s.rxActive := rfl
@[simp] theorem count_mdioBusy (n : CounterName) (s : State) : (count n s).mdioBusy = s.mdioBusy := rfl
@[simp] theorem count_ppBusy (n : CounterName) (s : State) : (count n s).ppBusy = s.ppBusy := rfl
@[simp] theorem count_halted (n : CounterName) (s : State) : (count n s).halted = s.halted := rfl
@[simp] theorem count_tdsr (n : CounterName) (s : State) : (count n s).tdsr = s.tdsr := rfl
@[simp] theorem count_rdsr (n : CounterName) (s : State) : (count n s).rdsr = s.rdsr := rfl
@[simp] theorem count_rxmax (n : CounterName) (s : State) : (count n s).rxmax = s.rxmax := rfl
@[simp] theorem count_maclo (n : CounterName) (s : State) : (count n s).maclo = s.maclo := rfl
@[simp] theorem count_machi (n : CounterName) (s : State) : (count n s).machi = s.machi := rfl
@[simp] theorem count_tdcur (n : CounterName) (s : State) : (count n s).tdcur = s.tdcur := rfl
@[simp] theorem count_rdcur (n : CounterName) (s : State) : (count n s).rdcur = s.rdcur := rfl
@[simp] theorem count_mmfr (n : CounterName) (s : State) : (count n s).mmfr = s.mmfr := rfl
@[simp] theorem count_counters (n : CounterName) (s : State) : (count n s).counters = s.counters.bump n := rfl
@[simp] theorem count_ppCmd (n : CounterName) (s : State) : (count n s).ppCmd = s.ppCmd := rfl
@[simp] theorem count_ppResult (n : CounterName) (s : State) : (count n s).ppResult = s.ppResult := rfl
@[simp] theorem count_p (n : CounterName) (s : State) : (count n s).p = s.p := rfl
@[simp] theorem count_ip4Addr (n : CounterName) (s : State) : (count n s).ip4Addr = s.ip4Addr := rfl
@[simp] theorem count_ip4Mask (n : CounterName) (s : State) : (count n s).ip4Mask = s.ip4Mask := rfl
@[simp] theorem count_ip4Gw (n : CounterName) (s : State) : (count n s).ip4Gw = s.ip4Gw := rfl
@[simp] theorem count_ip4Ttl (n : CounterName) (s : State) : (count n s).ip4Ttl = s.ip4Ttl := rfl
@[simp] theorem count_arpSel (n : CounterName) (s : State) : (count n s).arpSel = s.arpSel := rfl
@[simp] theorem count_arp (n : CounterName) (s : State) : (count n s).arp = s.arp := rfl
@[simp] theorem count_udpPort (n : CounterName) (s : State) : (count n s).udpPort = s.udpPort := rfl
@[simp] theorem count_mem (n : CounterName) (s : State) : (count n s).mem = s.mem := rfl
@[simp] theorem count_wireTx (n : CounterName) (s : State) : (count n s).wireTx = s.wireTx := rfl
@[simp] theorem count_phyLog (n : CounterName) (s : State) : (count n s).phyLog = s.phyLog := rfl
@[simp] theorem count_hostData (n : CounterName) (s : State) : (count n s).hostData = s.hostData := rfl
@[simp] theorem count_wireIn (n : CounterName) (s : State) : (count n s).wireIn = s.wireIn := rfl
@[simp] theorem count_phyIn (n : CounterName) (s : State) : (count n s).phyIn = s.phyIn := rfl
@[simp] theorem count_schedule (n : CounterName) (s : State) : (count n s).schedule = s.schedule := rfl
@[simp] theorem count_handed (n : CounterName) (s : State) : (count n s).handed = s.handed := rfl
@[simp] theorem count_choices (n : CounterName) (s : State) : (count n s).choices = s.choices := rfl

/-! ## `readReg` -/

@[simp] theorem readReg_platform (v : Word) (s : State) : (readReg v s).platform = s.platform := rfl
@[simp] theorem readReg_ctrlEn (v : Word) (s : State) : (readReg v s).ctrlEn = s.ctrlEn := rfl
@[simp] theorem readReg_ctrlLoop (v : Word) (s : State) : (readReg v s).ctrlLoop = s.ctrlLoop := rfl
@[simp] theorem readReg_eir (v : Word) (s : State) : (readReg v s).eir = s.eir := rfl
@[simp] theorem readReg_eimr (v : Word) (s : State) : (readReg v s).eimr = s.eimr := rfl
@[simp] theorem readReg_txActive (v : Word) (s : State) : (readReg v s).txActive = s.txActive := rfl
@[simp] theorem readReg_rxActive (v : Word) (s : State) : (readReg v s).rxActive = s.rxActive := rfl
@[simp] theorem readReg_mdioBusy (v : Word) (s : State) : (readReg v s).mdioBusy = s.mdioBusy := rfl
@[simp] theorem readReg_ppBusy (v : Word) (s : State) : (readReg v s).ppBusy = s.ppBusy := rfl
@[simp] theorem readReg_halted (v : Word) (s : State) : (readReg v s).halted = s.halted := rfl
@[simp] theorem readReg_tdsr (v : Word) (s : State) : (readReg v s).tdsr = s.tdsr := rfl
@[simp] theorem readReg_rdsr (v : Word) (s : State) : (readReg v s).rdsr = s.rdsr := rfl
@[simp] theorem readReg_rxmax (v : Word) (s : State) : (readReg v s).rxmax = s.rxmax := rfl
@[simp] theorem readReg_maclo (v : Word) (s : State) : (readReg v s).maclo = s.maclo := rfl
@[simp] theorem readReg_machi (v : Word) (s : State) : (readReg v s).machi = s.machi := rfl
@[simp] theorem readReg_tdcur (v : Word) (s : State) : (readReg v s).tdcur = s.tdcur := rfl
@[simp] theorem readReg_rdcur (v : Word) (s : State) : (readReg v s).rdcur = s.rdcur := rfl
@[simp] theorem readReg_mmfr (v : Word) (s : State) : (readReg v s).mmfr = s.mmfr := rfl
@[simp] theorem readReg_counters (v : Word) (s : State) : (readReg v s).counters = s.counters := rfl
@[simp] theorem readReg_ppCmd (v : Word) (s : State) : (readReg v s).ppCmd = s.ppCmd := rfl
@[simp] theorem readReg_ppResult (v : Word) (s : State) : (readReg v s).ppResult = s.ppResult := rfl
@[simp] theorem readReg_p (v : Word) (s : State) : (readReg v s).p = s.p := rfl
@[simp] theorem readReg_ip4Addr (v : Word) (s : State) : (readReg v s).ip4Addr = s.ip4Addr := rfl
@[simp] theorem readReg_ip4Mask (v : Word) (s : State) : (readReg v s).ip4Mask = s.ip4Mask := rfl
@[simp] theorem readReg_ip4Gw (v : Word) (s : State) : (readReg v s).ip4Gw = s.ip4Gw := rfl
@[simp] theorem readReg_ip4Ttl (v : Word) (s : State) : (readReg v s).ip4Ttl = s.ip4Ttl := rfl
@[simp] theorem readReg_arpSel (v : Word) (s : State) : (readReg v s).arpSel = s.arpSel := rfl
@[simp] theorem readReg_arp (v : Word) (s : State) : (readReg v s).arp = s.arp := rfl
@[simp] theorem readReg_udpPort (v : Word) (s : State) : (readReg v s).udpPort = s.udpPort := rfl
@[simp] theorem readReg_mem (v : Word) (s : State) : (readReg v s).mem = s.mem := rfl
@[simp] theorem readReg_wireTx (v : Word) (s : State) : (readReg v s).wireTx = s.wireTx := rfl
@[simp] theorem readReg_phyLog (v : Word) (s : State) : (readReg v s).phyLog = s.phyLog := rfl
@[simp] theorem readReg_hostData (v : Word) (s : State) : (readReg v s).hostData = v := rfl
@[simp] theorem readReg_wireIn (v : Word) (s : State) : (readReg v s).wireIn = s.wireIn := rfl
@[simp] theorem readReg_phyIn (v : Word) (s : State) : (readReg v s).phyIn = s.phyIn := rfl
@[simp] theorem readReg_schedule (v : Word) (s : State) : (readReg v s).schedule = s.schedule := rfl
@[simp] theorem readReg_handed (v : Word) (s : State) : (readReg v s).handed = s.handed := rfl
@[simp] theorem readReg_choices (v : Word) (s : State) : (readReg v s).choices = s.choices := rfl

/-! ## `busError` -/

@[simp] theorem busError_platform (s : State) : (busError s).platform = s.platform := rfl
@[simp] theorem busError_ctrlEn (s : State) : (busError s).ctrlEn = s.ctrlEn := rfl
@[simp] theorem busError_ctrlLoop (s : State) : (busError s).ctrlLoop = s.ctrlLoop := rfl
@[simp] theorem busError_eir (s : State) : (busError s).eir = s.eir ||| EventBit.berr.mask := rfl
@[simp] theorem busError_eimr (s : State) : (busError s).eimr = s.eimr := rfl
@[simp] theorem busError_txActive (s : State) : (busError s).txActive = false := rfl
@[simp] theorem busError_rxActive (s : State) : (busError s).rxActive = false := rfl
@[simp] theorem busError_mdioBusy (s : State) : (busError s).mdioBusy = s.mdioBusy := rfl
@[simp] theorem busError_ppBusy (s : State) : (busError s).ppBusy = s.ppBusy := rfl
@[simp] theorem busError_halted (s : State) : (busError s).halted = true := rfl
@[simp] theorem busError_tdsr (s : State) : (busError s).tdsr = s.tdsr := rfl
@[simp] theorem busError_rdsr (s : State) : (busError s).rdsr = s.rdsr := rfl
@[simp] theorem busError_rxmax (s : State) : (busError s).rxmax = s.rxmax := rfl
@[simp] theorem busError_maclo (s : State) : (busError s).maclo = s.maclo := rfl
@[simp] theorem busError_machi (s : State) : (busError s).machi = s.machi := rfl
@[simp] theorem busError_tdcur (s : State) : (busError s).tdcur = s.tdcur := rfl
@[simp] theorem busError_rdcur (s : State) : (busError s).rdcur = s.rdcur := rfl
@[simp] theorem busError_mmfr (s : State) : (busError s).mmfr = s.mmfr := rfl
@[simp] theorem busError_counters (s : State) : (busError s).counters = s.counters := rfl
@[simp] theorem busError_ppCmd (s : State) : (busError s).ppCmd = s.ppCmd := rfl
@[simp] theorem busError_ppResult (s : State) : (busError s).ppResult = s.ppResult := rfl
@[simp] theorem busError_p (s : State) : (busError s).p = s.p := rfl
@[simp] theorem busError_ip4Addr (s : State) : (busError s).ip4Addr = s.ip4Addr := rfl
@[simp] theorem busError_ip4Mask (s : State) : (busError s).ip4Mask = s.ip4Mask := rfl
@[simp] theorem busError_ip4Gw (s : State) : (busError s).ip4Gw = s.ip4Gw := rfl
@[simp] theorem busError_ip4Ttl (s : State) : (busError s).ip4Ttl = s.ip4Ttl := rfl
@[simp] theorem busError_arpSel (s : State) : (busError s).arpSel = s.arpSel := rfl
@[simp] theorem busError_arp (s : State) : (busError s).arp = s.arp := rfl
@[simp] theorem busError_udpPort (s : State) : (busError s).udpPort = s.udpPort := rfl
@[simp] theorem busError_mem (s : State) : (busError s).mem = s.mem := rfl
@[simp] theorem busError_wireTx (s : State) : (busError s).wireTx = s.wireTx := rfl
@[simp] theorem busError_phyLog (s : State) : (busError s).phyLog = s.phyLog := rfl
@[simp] theorem busError_hostData (s : State) : (busError s).hostData = s.hostData := rfl
@[simp] theorem busError_wireIn (s : State) : (busError s).wireIn = s.wireIn := rfl
@[simp] theorem busError_phyIn (s : State) : (busError s).phyIn = s.phyIn := rfl
@[simp] theorem busError_schedule (s : State) : (busError s).schedule = s.schedule := rfl
@[simp] theorem busError_handed (s : State) : (busError s).handed = s.handed := rfl
@[simp] theorem busError_choices (s : State) : (busError s).choices = s.choices := rfl

/-! ## `ppFinish` -/

@[simp] theorem ppFinish_platform (r : PpResult) (s : State) : (ppFinish r s).platform = s.platform := rfl
@[simp] theorem ppFinish_ctrlEn (r : PpResult) (s : State) : (ppFinish r s).ctrlEn = s.ctrlEn := rfl
@[simp] theorem ppFinish_ctrlLoop (r : PpResult) (s : State) : (ppFinish r s).ctrlLoop = s.ctrlLoop := rfl
@[simp] theorem ppFinish_eir (r : PpResult) (s : State) : (ppFinish r s).eir = s.eir ||| EventBit.ppd.mask := rfl
@[simp] theorem ppFinish_eimr (r : PpResult) (s : State) : (ppFinish r s).eimr = s.eimr := rfl
@[simp] theorem ppFinish_txActive (r : PpResult) (s : State) : (ppFinish r s).txActive = s.txActive := rfl
@[simp] theorem ppFinish_rxActive (r : PpResult) (s : State) : (ppFinish r s).rxActive = s.rxActive := rfl
@[simp] theorem ppFinish_mdioBusy (r : PpResult) (s : State) : (ppFinish r s).mdioBusy = s.mdioBusy := rfl
@[simp] theorem ppFinish_ppBusy (r : PpResult) (s : State) : (ppFinish r s).ppBusy = false := rfl
@[simp] theorem ppFinish_halted (r : PpResult) (s : State) : (ppFinish r s).halted = s.halted := rfl
@[simp] theorem ppFinish_tdsr (r : PpResult) (s : State) : (ppFinish r s).tdsr = s.tdsr := rfl
@[simp] theorem ppFinish_rdsr (r : PpResult) (s : State) : (ppFinish r s).rdsr = s.rdsr := rfl
@[simp] theorem ppFinish_rxmax (r : PpResult) (s : State) : (ppFinish r s).rxmax = s.rxmax := rfl
@[simp] theorem ppFinish_maclo (r : PpResult) (s : State) : (ppFinish r s).maclo = s.maclo := rfl
@[simp] theorem ppFinish_machi (r : PpResult) (s : State) : (ppFinish r s).machi = s.machi := rfl
@[simp] theorem ppFinish_tdcur (r : PpResult) (s : State) : (ppFinish r s).tdcur = s.tdcur := rfl
@[simp] theorem ppFinish_rdcur (r : PpResult) (s : State) : (ppFinish r s).rdcur = s.rdcur := rfl
@[simp] theorem ppFinish_mmfr (r : PpResult) (s : State) : (ppFinish r s).mmfr = s.mmfr := rfl
@[simp] theorem ppFinish_counters (r : PpResult) (s : State) : (ppFinish r s).counters = s.counters := rfl
@[simp] theorem ppFinish_ppCmd (r : PpResult) (s : State) : (ppFinish r s).ppCmd = s.ppCmd := rfl
@[simp] theorem ppFinish_ppResult (r : PpResult) (s : State) : (ppFinish r s).ppResult = r := rfl
@[simp] theorem ppFinish_p (r : PpResult) (s : State) : (ppFinish r s).p = s.p := rfl
@[simp] theorem ppFinish_ip4Addr (r : PpResult) (s : State) : (ppFinish r s).ip4Addr = s.ip4Addr := rfl
@[simp] theorem ppFinish_ip4Mask (r : PpResult) (s : State) : (ppFinish r s).ip4Mask = s.ip4Mask := rfl
@[simp] theorem ppFinish_ip4Gw (r : PpResult) (s : State) : (ppFinish r s).ip4Gw = s.ip4Gw := rfl
@[simp] theorem ppFinish_ip4Ttl (r : PpResult) (s : State) : (ppFinish r s).ip4Ttl = s.ip4Ttl := rfl
@[simp] theorem ppFinish_arpSel (r : PpResult) (s : State) : (ppFinish r s).arpSel = s.arpSel := rfl
@[simp] theorem ppFinish_arp (r : PpResult) (s : State) : (ppFinish r s).arp = s.arp := rfl
@[simp] theorem ppFinish_udpPort (r : PpResult) (s : State) : (ppFinish r s).udpPort = s.udpPort := rfl
@[simp] theorem ppFinish_mem (r : PpResult) (s : State) : (ppFinish r s).mem = s.mem := rfl
@[simp] theorem ppFinish_wireTx (r : PpResult) (s : State) : (ppFinish r s).wireTx = s.wireTx := rfl
@[simp] theorem ppFinish_phyLog (r : PpResult) (s : State) : (ppFinish r s).phyLog = s.phyLog := rfl
@[simp] theorem ppFinish_hostData (r : PpResult) (s : State) : (ppFinish r s).hostData = s.hostData := rfl
@[simp] theorem ppFinish_wireIn (r : PpResult) (s : State) : (ppFinish r s).wireIn = s.wireIn := rfl
@[simp] theorem ppFinish_phyIn (r : PpResult) (s : State) : (ppFinish r s).phyIn = s.phyIn := rfl
@[simp] theorem ppFinish_schedule (r : PpResult) (s : State) : (ppFinish r s).schedule = s.schedule := rfl
@[simp] theorem ppFinish_handed (r : PpResult) (s : State) : (ppFinish r s).handed = s.handed := rfl
@[simp] theorem ppFinish_choices (r : PpResult) (s : State) : (ppFinish r s).choices = s.choices := rfl

/-! ## `mdioDone` -/

@[simp] theorem mdioDone_platform (s : State) : (mdioDone s).platform = s.platform := rfl
@[simp] theorem mdioDone_ctrlEn (s : State) : (mdioDone s).ctrlEn = s.ctrlEn := rfl
@[simp] theorem mdioDone_ctrlLoop (s : State) : (mdioDone s).ctrlLoop = s.ctrlLoop := rfl
@[simp] theorem mdioDone_eir (s : State) : (mdioDone s).eir = s.eir ||| EventBit.mii.mask := rfl
@[simp] theorem mdioDone_eimr (s : State) : (mdioDone s).eimr = s.eimr := rfl
@[simp] theorem mdioDone_txActive (s : State) : (mdioDone s).txActive = s.txActive := rfl
@[simp] theorem mdioDone_rxActive (s : State) : (mdioDone s).rxActive = s.rxActive := rfl
@[simp] theorem mdioDone_mdioBusy (s : State) : (mdioDone s).mdioBusy = false := rfl
@[simp] theorem mdioDone_ppBusy (s : State) : (mdioDone s).ppBusy = s.ppBusy := rfl
@[simp] theorem mdioDone_halted (s : State) : (mdioDone s).halted = s.halted := rfl
@[simp] theorem mdioDone_tdsr (s : State) : (mdioDone s).tdsr = s.tdsr := rfl
@[simp] theorem mdioDone_rdsr (s : State) : (mdioDone s).rdsr = s.rdsr := rfl
@[simp] theorem mdioDone_rxmax (s : State) : (mdioDone s).rxmax = s.rxmax := rfl
@[simp] theorem mdioDone_maclo (s : State) : (mdioDone s).maclo = s.maclo := rfl
@[simp] theorem mdioDone_machi (s : State) : (mdioDone s).machi = s.machi := rfl
@[simp] theorem mdioDone_tdcur (s : State) : (mdioDone s).tdcur = s.tdcur := rfl
@[simp] theorem mdioDone_rdcur (s : State) : (mdioDone s).rdcur = s.rdcur := rfl
@[simp] theorem mdioDone_mmfr (s : State) : (mdioDone s).mmfr = s.mmfr := rfl
@[simp] theorem mdioDone_counters (s : State) : (mdioDone s).counters = s.counters := rfl
@[simp] theorem mdioDone_ppCmd (s : State) : (mdioDone s).ppCmd = s.ppCmd := rfl
@[simp] theorem mdioDone_ppResult (s : State) : (mdioDone s).ppResult = s.ppResult := rfl
@[simp] theorem mdioDone_p (s : State) : (mdioDone s).p = s.p := rfl
@[simp] theorem mdioDone_ip4Addr (s : State) : (mdioDone s).ip4Addr = s.ip4Addr := rfl
@[simp] theorem mdioDone_ip4Mask (s : State) : (mdioDone s).ip4Mask = s.ip4Mask := rfl
@[simp] theorem mdioDone_ip4Gw (s : State) : (mdioDone s).ip4Gw = s.ip4Gw := rfl
@[simp] theorem mdioDone_ip4Ttl (s : State) : (mdioDone s).ip4Ttl = s.ip4Ttl := rfl
@[simp] theorem mdioDone_arpSel (s : State) : (mdioDone s).arpSel = s.arpSel := rfl
@[simp] theorem mdioDone_arp (s : State) : (mdioDone s).arp = s.arp := rfl
@[simp] theorem mdioDone_udpPort (s : State) : (mdioDone s).udpPort = s.udpPort := rfl
@[simp] theorem mdioDone_mem (s : State) : (mdioDone s).mem = s.mem := rfl
@[simp] theorem mdioDone_wireTx (s : State) : (mdioDone s).wireTx = s.wireTx := rfl
@[simp] theorem mdioDone_phyLog (s : State) : (mdioDone s).phyLog = s.phyLog := rfl
@[simp] theorem mdioDone_hostData (s : State) : (mdioDone s).hostData = s.hostData := rfl
@[simp] theorem mdioDone_wireIn (s : State) : (mdioDone s).wireIn = s.wireIn := rfl
@[simp] theorem mdioDone_phyIn (s : State) : (mdioDone s).phyIn = s.phyIn := rfl
@[simp] theorem mdioDone_schedule (s : State) : (mdioDone s).schedule = s.schedule := rfl
@[simp] theorem mdioDone_handed (s : State) : (mdioDone s).handed = s.handed := rfl
@[simp] theorem mdioDone_choices (s : State) : (mdioDone s).choices = s.choices := rfl

/-! ## `rxStop` -/

@[simp] theorem rxStop_platform (s : State) : (rxStop s).platform = s.platform := rfl
@[simp] theorem rxStop_ctrlEn (s : State) : (rxStop s).ctrlEn = s.ctrlEn := rfl
@[simp] theorem rxStop_ctrlLoop (s : State) : (rxStop s).ctrlLoop = s.ctrlLoop := rfl
@[simp] theorem rxStop_eir (s : State) : (rxStop s).eir = s.eir := rfl
@[simp] theorem rxStop_eimr (s : State) : (rxStop s).eimr = s.eimr := rfl
@[simp] theorem rxStop_txActive (s : State) : (rxStop s).txActive = s.txActive := rfl
@[simp] theorem rxStop_rxActive (s : State) : (rxStop s).rxActive = false := rfl
@[simp] theorem rxStop_mdioBusy (s : State) : (rxStop s).mdioBusy = s.mdioBusy := rfl
@[simp] theorem rxStop_ppBusy (s : State) : (rxStop s).ppBusy = s.ppBusy := rfl
@[simp] theorem rxStop_halted (s : State) : (rxStop s).halted = s.halted := rfl
@[simp] theorem rxStop_tdsr (s : State) : (rxStop s).tdsr = s.tdsr := rfl
@[simp] theorem rxStop_rdsr (s : State) : (rxStop s).rdsr = s.rdsr := rfl
@[simp] theorem rxStop_rxmax (s : State) : (rxStop s).rxmax = s.rxmax := rfl
@[simp] theorem rxStop_maclo (s : State) : (rxStop s).maclo = s.maclo := rfl
@[simp] theorem rxStop_machi (s : State) : (rxStop s).machi = s.machi := rfl
@[simp] theorem rxStop_tdcur (s : State) : (rxStop s).tdcur = s.tdcur := rfl
@[simp] theorem rxStop_rdcur (s : State) : (rxStop s).rdcur = s.rdcur := rfl
@[simp] theorem rxStop_mmfr (s : State) : (rxStop s).mmfr = s.mmfr := rfl
@[simp] theorem rxStop_counters (s : State) : (rxStop s).counters = s.counters.bump .rxNodesc := rfl
@[simp] theorem rxStop_ppCmd (s : State) : (rxStop s).ppCmd = s.ppCmd := rfl
@[simp] theorem rxStop_ppResult (s : State) : (rxStop s).ppResult = s.ppResult := rfl
@[simp] theorem rxStop_p (s : State) : (rxStop s).p = s.p := rfl
@[simp] theorem rxStop_ip4Addr (s : State) : (rxStop s).ip4Addr = s.ip4Addr := rfl
@[simp] theorem rxStop_ip4Mask (s : State) : (rxStop s).ip4Mask = s.ip4Mask := rfl
@[simp] theorem rxStop_ip4Gw (s : State) : (rxStop s).ip4Gw = s.ip4Gw := rfl
@[simp] theorem rxStop_ip4Ttl (s : State) : (rxStop s).ip4Ttl = s.ip4Ttl := rfl
@[simp] theorem rxStop_arpSel (s : State) : (rxStop s).arpSel = s.arpSel := rfl
@[simp] theorem rxStop_arp (s : State) : (rxStop s).arp = s.arp := rfl
@[simp] theorem rxStop_udpPort (s : State) : (rxStop s).udpPort = s.udpPort := rfl
@[simp] theorem rxStop_mem (s : State) : (rxStop s).mem = s.mem := rfl
@[simp] theorem rxStop_wireTx (s : State) : (rxStop s).wireTx = s.wireTx := rfl
@[simp] theorem rxStop_phyLog (s : State) : (rxStop s).phyLog = s.phyLog := rfl
@[simp] theorem rxStop_hostData (s : State) : (rxStop s).hostData = s.hostData := rfl
@[simp] theorem rxStop_wireIn (s : State) : (rxStop s).wireIn = s.wireIn := rfl
@[simp] theorem rxStop_phyIn (s : State) : (rxStop s).phyIn = s.phyIn := rfl
@[simp] theorem rxStop_schedule (s : State) : (rxStop s).schedule = s.schedule := rfl
@[simp] theorem rxStop_handed (s : State) : (rxStop s).handed = s.handed := rfl
@[simp] theorem rxStop_choices (s : State) : (rxStop s).choices = s.choices := rfl

/-! ## `resetBlock` -/

@[simp] theorem resetBlock_platform (s : State) : (resetBlock s).platform = s.platform := rfl
@[simp] theorem resetBlock_ctrlEn (s : State) : (resetBlock s).ctrlEn = State.reset.ctrlEn := rfl
@[simp] theorem resetBlock_ctrlLoop (s : State) : (resetBlock s).ctrlLoop = State.reset.ctrlLoop := rfl
@[simp] theorem resetBlock_eir (s : State) : (resetBlock s).eir = State.reset.eir := rfl
@[simp] theorem resetBlock_eimr (s : State) : (resetBlock s).eimr = State.reset.eimr := rfl
@[simp] theorem resetBlock_txActive (s : State) : (resetBlock s).txActive = State.reset.txActive := rfl
@[simp] theorem resetBlock_rxActive (s : State) : (resetBlock s).rxActive = State.reset.rxActive := rfl
@[simp] theorem resetBlock_mdioBusy (s : State) : (resetBlock s).mdioBusy = State.reset.mdioBusy := rfl
@[simp] theorem resetBlock_ppBusy (s : State) : (resetBlock s).ppBusy = State.reset.ppBusy := rfl
@[simp] theorem resetBlock_halted (s : State) : (resetBlock s).halted = State.reset.halted := rfl
@[simp] theorem resetBlock_tdsr (s : State) : (resetBlock s).tdsr = State.reset.tdsr := rfl
@[simp] theorem resetBlock_rdsr (s : State) : (resetBlock s).rdsr = State.reset.rdsr := rfl
@[simp] theorem resetBlock_rxmax (s : State) : (resetBlock s).rxmax = State.reset.rxmax := rfl
@[simp] theorem resetBlock_maclo (s : State) : (resetBlock s).maclo = State.reset.maclo := rfl
@[simp] theorem resetBlock_machi (s : State) : (resetBlock s).machi = State.reset.machi := rfl
@[simp] theorem resetBlock_tdcur (s : State) : (resetBlock s).tdcur = State.reset.tdcur := rfl
@[simp] theorem resetBlock_rdcur (s : State) : (resetBlock s).rdcur = State.reset.rdcur := rfl
@[simp] theorem resetBlock_mmfr (s : State) : (resetBlock s).mmfr = State.reset.mmfr := rfl
@[simp] theorem resetBlock_counters (s : State) : (resetBlock s).counters = State.reset.counters := rfl
@[simp] theorem resetBlock_ppCmd (s : State) : (resetBlock s).ppCmd = State.reset.ppCmd := rfl
@[simp] theorem resetBlock_ppResult (s : State) : (resetBlock s).ppResult = State.reset.ppResult := rfl
@[simp] theorem resetBlock_p (s : State) : (resetBlock s).p = State.reset.p := rfl
@[simp] theorem resetBlock_ip4Addr (s : State) : (resetBlock s).ip4Addr = State.reset.ip4Addr := rfl
@[simp] theorem resetBlock_ip4Mask (s : State) : (resetBlock s).ip4Mask = State.reset.ip4Mask := rfl
@[simp] theorem resetBlock_ip4Gw (s : State) : (resetBlock s).ip4Gw = State.reset.ip4Gw := rfl
@[simp] theorem resetBlock_ip4Ttl (s : State) : (resetBlock s).ip4Ttl = State.reset.ip4Ttl := rfl
@[simp] theorem resetBlock_arpSel (s : State) : (resetBlock s).arpSel = State.reset.arpSel := rfl
@[simp] theorem resetBlock_arp (s : State) : (resetBlock s).arp = State.reset.arp := rfl
@[simp] theorem resetBlock_udpPort (s : State) : (resetBlock s).udpPort = State.reset.udpPort := rfl
@[simp] theorem resetBlock_mem (s : State) : (resetBlock s).mem = s.mem := rfl
@[simp] theorem resetBlock_wireTx (s : State) : (resetBlock s).wireTx = s.wireTx := rfl
@[simp] theorem resetBlock_hostData (s : State) : (resetBlock s).hostData = s.hostData := rfl
@[simp] theorem resetBlock_wireIn (s : State) : (resetBlock s).wireIn = s.wireIn := rfl
@[simp] theorem resetBlock_phyIn (s : State) : (resetBlock s).phyIn = s.phyIn := rfl
@[simp] theorem resetBlock_schedule (s : State) : (resetBlock s).schedule = s.schedule := rfl
@[simp] theorem resetBlock_handed (s : State) : (resetBlock s).handed = s.handed := rfl

/-! ## `setEventIf` and `setPort`, which test before they write -/

@[simp] theorem setEventIf_eir (c : Bool) (e : EventBit) (s : State) :
    (setEventIf c e s).eir = if c then s.eir ||| e.mask else s.eir := by
  cases c <;> rfl
@[simp] theorem setEventIf_platform (c : Bool) (e : EventBit) (s : State) : (setEventIf c e s).platform = s.platform := by cases c <;> rfl
@[simp] theorem setEventIf_ctrlEn (c : Bool) (e : EventBit) (s : State) : (setEventIf c e s).ctrlEn = s.ctrlEn := by cases c <;> rfl
@[simp] theorem setEventIf_ctrlLoop (c : Bool) (e : EventBit) (s : State) : (setEventIf c e s).ctrlLoop = s.ctrlLoop := by cases c <;> rfl
@[simp] theorem setEventIf_eimr (c : Bool) (e : EventBit) (s : State) : (setEventIf c e s).eimr = s.eimr := by cases c <;> rfl
@[simp] theorem setEventIf_txActive (c : Bool) (e : EventBit) (s : State) : (setEventIf c e s).txActive = s.txActive := by cases c <;> rfl
@[simp] theorem setEventIf_rxActive (c : Bool) (e : EventBit) (s : State) : (setEventIf c e s).rxActive = s.rxActive := by cases c <;> rfl
@[simp] theorem setEventIf_mdioBusy (c : Bool) (e : EventBit) (s : State) : (setEventIf c e s).mdioBusy = s.mdioBusy := by cases c <;> rfl
@[simp] theorem setEventIf_ppBusy (c : Bool) (e : EventBit) (s : State) : (setEventIf c e s).ppBusy = s.ppBusy := by cases c <;> rfl
@[simp] theorem setEventIf_halted (c : Bool) (e : EventBit) (s : State) : (setEventIf c e s).halted = s.halted := by cases c <;> rfl
@[simp] theorem setEventIf_tdsr (c : Bool) (e : EventBit) (s : State) : (setEventIf c e s).tdsr = s.tdsr := by cases c <;> rfl
@[simp] theorem setEventIf_rdsr (c : Bool) (e : EventBit) (s : State) : (setEventIf c e s).rdsr = s.rdsr := by cases c <;> rfl
@[simp] theorem setEventIf_rxmax (c : Bool) (e : EventBit) (s : State) : (setEventIf c e s).rxmax = s.rxmax := by cases c <;> rfl
@[simp] theorem setEventIf_maclo (c : Bool) (e : EventBit) (s : State) : (setEventIf c e s).maclo = s.maclo := by cases c <;> rfl
@[simp] theorem setEventIf_machi (c : Bool) (e : EventBit) (s : State) : (setEventIf c e s).machi = s.machi := by cases c <;> rfl
@[simp] theorem setEventIf_tdcur (c : Bool) (e : EventBit) (s : State) : (setEventIf c e s).tdcur = s.tdcur := by cases c <;> rfl
@[simp] theorem setEventIf_rdcur (c : Bool) (e : EventBit) (s : State) : (setEventIf c e s).rdcur = s.rdcur := by cases c <;> rfl
@[simp] theorem setEventIf_mmfr (c : Bool) (e : EventBit) (s : State) : (setEventIf c e s).mmfr = s.mmfr := by cases c <;> rfl
@[simp] theorem setEventIf_counters (c : Bool) (e : EventBit) (s : State) : (setEventIf c e s).counters = s.counters := by cases c <;> rfl
@[simp] theorem setEventIf_ppCmd (c : Bool) (e : EventBit) (s : State) : (setEventIf c e s).ppCmd = s.ppCmd := by cases c <;> rfl
@[simp] theorem setEventIf_ppResult (c : Bool) (e : EventBit) (s : State) : (setEventIf c e s).ppResult = s.ppResult := by cases c <;> rfl
@[simp] theorem setEventIf_p (c : Bool) (e : EventBit) (s : State) : (setEventIf c e s).p = s.p := by cases c <;> rfl
@[simp] theorem setEventIf_ip4Addr (c : Bool) (e : EventBit) (s : State) : (setEventIf c e s).ip4Addr = s.ip4Addr := by cases c <;> rfl
@[simp] theorem setEventIf_ip4Mask (c : Bool) (e : EventBit) (s : State) : (setEventIf c e s).ip4Mask = s.ip4Mask := by cases c <;> rfl
@[simp] theorem setEventIf_ip4Gw (c : Bool) (e : EventBit) (s : State) : (setEventIf c e s).ip4Gw = s.ip4Gw := by cases c <;> rfl
@[simp] theorem setEventIf_ip4Ttl (c : Bool) (e : EventBit) (s : State) : (setEventIf c e s).ip4Ttl = s.ip4Ttl := by cases c <;> rfl
@[simp] theorem setEventIf_arpSel (c : Bool) (e : EventBit) (s : State) : (setEventIf c e s).arpSel = s.arpSel := by cases c <;> rfl
@[simp] theorem setEventIf_arp (c : Bool) (e : EventBit) (s : State) : (setEventIf c e s).arp = s.arp := by cases c <;> rfl
@[simp] theorem setEventIf_udpPort (c : Bool) (e : EventBit) (s : State) : (setEventIf c e s).udpPort = s.udpPort := by cases c <;> rfl
@[simp] theorem setEventIf_mem (c : Bool) (e : EventBit) (s : State) : (setEventIf c e s).mem = s.mem := by cases c <;> rfl
@[simp] theorem setEventIf_wireTx (c : Bool) (e : EventBit) (s : State) : (setEventIf c e s).wireTx = s.wireTx := by cases c <;> rfl
@[simp] theorem setEventIf_phyLog (c : Bool) (e : EventBit) (s : State) : (setEventIf c e s).phyLog = s.phyLog := by cases c <;> rfl
@[simp] theorem setEventIf_hostData (c : Bool) (e : EventBit) (s : State) : (setEventIf c e s).hostData = s.hostData := by cases c <;> rfl
@[simp] theorem setEventIf_wireIn (c : Bool) (e : EventBit) (s : State) : (setEventIf c e s).wireIn = s.wireIn := by cases c <;> rfl
@[simp] theorem setEventIf_phyIn (c : Bool) (e : EventBit) (s : State) : (setEventIf c e s).phyIn = s.phyIn := by cases c <;> rfl
@[simp] theorem setEventIf_schedule (c : Bool) (e : EventBit) (s : State) : (setEventIf c e s).schedule = s.schedule := by cases c <;> rfl
@[simp] theorem setEventIf_handed (c : Bool) (e : EventBit) (s : State) : (setEventIf c e s).handed = s.handed := by cases c <;> rfl
@[simp] theorem setEventIf_choices (c : Bool) (e : EventBit) (s : State) : (setEventIf c e s).choices = s.choices := by cases c <;> rfl

@[simp] theorem setPort_platform (k : Nat) (q : Half) (s : State) : (setPort k q s).platform = s.platform := by unfold setPort; split <;> rfl
@[simp] theorem setPort_ctrlEn (k : Nat) (q : Half) (s : State) : (setPort k q s).ctrlEn = s.ctrlEn := by unfold setPort; split <;> rfl
@[simp] theorem setPort_ctrlLoop (k : Nat) (q : Half) (s : State) : (setPort k q s).ctrlLoop = s.ctrlLoop := by unfold setPort; split <;> rfl
@[simp] theorem setPort_eir (k : Nat) (q : Half) (s : State) : (setPort k q s).eir = s.eir := by unfold setPort; split <;> rfl
@[simp] theorem setPort_eimr (k : Nat) (q : Half) (s : State) : (setPort k q s).eimr = s.eimr := by unfold setPort; split <;> rfl
@[simp] theorem setPort_txActive (k : Nat) (q : Half) (s : State) : (setPort k q s).txActive = s.txActive := by unfold setPort; split <;> rfl
@[simp] theorem setPort_rxActive (k : Nat) (q : Half) (s : State) : (setPort k q s).rxActive = s.rxActive := by unfold setPort; split <;> rfl
@[simp] theorem setPort_mdioBusy (k : Nat) (q : Half) (s : State) : (setPort k q s).mdioBusy = s.mdioBusy := by unfold setPort; split <;> rfl
@[simp] theorem setPort_ppBusy (k : Nat) (q : Half) (s : State) : (setPort k q s).ppBusy = s.ppBusy := by unfold setPort; split <;> rfl
@[simp] theorem setPort_halted (k : Nat) (q : Half) (s : State) : (setPort k q s).halted = s.halted := by unfold setPort; split <;> rfl
@[simp] theorem setPort_tdsr (k : Nat) (q : Half) (s : State) : (setPort k q s).tdsr = s.tdsr := by unfold setPort; split <;> rfl
@[simp] theorem setPort_rdsr (k : Nat) (q : Half) (s : State) : (setPort k q s).rdsr = s.rdsr := by unfold setPort; split <;> rfl
@[simp] theorem setPort_rxmax (k : Nat) (q : Half) (s : State) : (setPort k q s).rxmax = s.rxmax := by unfold setPort; split <;> rfl
@[simp] theorem setPort_maclo (k : Nat) (q : Half) (s : State) : (setPort k q s).maclo = s.maclo := by unfold setPort; split <;> rfl
@[simp] theorem setPort_machi (k : Nat) (q : Half) (s : State) : (setPort k q s).machi = s.machi := by unfold setPort; split <;> rfl
@[simp] theorem setPort_tdcur (k : Nat) (q : Half) (s : State) : (setPort k q s).tdcur = s.tdcur := by unfold setPort; split <;> rfl
@[simp] theorem setPort_rdcur (k : Nat) (q : Half) (s : State) : (setPort k q s).rdcur = s.rdcur := by unfold setPort; split <;> rfl
@[simp] theorem setPort_mmfr (k : Nat) (q : Half) (s : State) : (setPort k q s).mmfr = s.mmfr := by unfold setPort; split <;> rfl
@[simp] theorem setPort_counters (k : Nat) (q : Half) (s : State) : (setPort k q s).counters = s.counters := by unfold setPort; split <;> rfl
@[simp] theorem setPort_ppCmd (k : Nat) (q : Half) (s : State) : (setPort k q s).ppCmd = s.ppCmd := by unfold setPort; split <;> rfl
@[simp] theorem setPort_ppResult (k : Nat) (q : Half) (s : State) : (setPort k q s).ppResult = s.ppResult := by unfold setPort; split <;> rfl
@[simp] theorem setPort_p (k : Nat) (q : Half) (s : State) : (setPort k q s).p = s.p := by unfold setPort; split <;> rfl
@[simp] theorem setPort_ip4Addr (k : Nat) (q : Half) (s : State) : (setPort k q s).ip4Addr = s.ip4Addr := by unfold setPort; split <;> rfl
@[simp] theorem setPort_ip4Mask (k : Nat) (q : Half) (s : State) : (setPort k q s).ip4Mask = s.ip4Mask := by unfold setPort; split <;> rfl
@[simp] theorem setPort_ip4Gw (k : Nat) (q : Half) (s : State) : (setPort k q s).ip4Gw = s.ip4Gw := by unfold setPort; split <;> rfl
@[simp] theorem setPort_ip4Ttl (k : Nat) (q : Half) (s : State) : (setPort k q s).ip4Ttl = s.ip4Ttl := by unfold setPort; split <;> rfl
@[simp] theorem setPort_arpSel (k : Nat) (q : Half) (s : State) : (setPort k q s).arpSel = s.arpSel := by unfold setPort; split <;> rfl
@[simp] theorem setPort_arp (k : Nat) (q : Half) (s : State) : (setPort k q s).arp = s.arp := by unfold setPort; split <;> rfl
@[simp] theorem setPort_mem (k : Nat) (q : Half) (s : State) : (setPort k q s).mem = s.mem := by unfold setPort; split <;> rfl
@[simp] theorem setPort_wireTx (k : Nat) (q : Half) (s : State) : (setPort k q s).wireTx = s.wireTx := by unfold setPort; split <;> rfl
@[simp] theorem setPort_phyLog (k : Nat) (q : Half) (s : State) : (setPort k q s).phyLog = s.phyLog := by unfold setPort; split <;> rfl
@[simp] theorem setPort_hostData (k : Nat) (q : Half) (s : State) : (setPort k q s).hostData = s.hostData := by unfold setPort; split <;> rfl
@[simp] theorem setPort_wireIn (k : Nat) (q : Half) (s : State) : (setPort k q s).wireIn = s.wireIn := by unfold setPort; split <;> rfl
@[simp] theorem setPort_phyIn (k : Nat) (q : Half) (s : State) : (setPort k q s).phyIn = s.phyIn := by unfold setPort; split <;> rfl
@[simp] theorem setPort_schedule (k : Nat) (q : Half) (s : State) : (setPort k q s).schedule = s.schedule := by unfold setPort; split <;> rfl
@[simp] theorem setPort_handed (k : Nat) (q : Half) (s : State) : (setPort k q s).handed = s.handed := by unfold setPort; split <;> rfl
@[simp] theorem setPort_choices (k : Nat) (q : Half) (s : State) : (setPort k q s).choices = s.choices := by unfold setPort; split <;> rfl

end Sys2Proof.Machine
end

