-- ==== Sys2Proof/Machine/HostCalls.lean ====
section
/-! DEFINITION. The pseudo-instructions of the host, spec 47_driver_sequences R320 to R334, in the notation of 30_encoding
R121: each driver call as the turns it puts on the schedule.  Where a call reads a value and goes on by it, the value
is an argument of the next piece; waiting and host memory of the driver (R4) are the caller's.  No hardware behaviour
is added here. -/

namespace Sys2Proof.Machine

/-! ## The lines of R121 -/

/-- `WR <REG>, value`, the register by its offset. -/
def hostWr (base offset value : Word) : Turn := .hostWrite (base + offset) .w32 value

/-- `RD <REG>`. -/
def hostRd (base offset : Word) : Turn := .hostRead (base + offset) .w32

/-- `MW32 addr, value`. -/
def hostMw32 (addr value : Word) : Turn := .hostWrite addr .w32 value

/-- `MR32 addr`. -/
def hostMr32 (addr : Word) : Turn := .hostRead addr .w32

/-- `MWB addr, bytes`. -/
def hostMwb (addr : Word) (bytes : List Byte) : Turn := .hostStore addr bytes

/-- `RD EIR`, one poll of a `WAIT EIR.<event>`. -/
def eirRead (base : Word) : List Turn := [hostRd base 0x004#32]

/-- The event's bit reads 1 in the `EIR` value `v` (R23). -/
def eventSeen (e : EventBit) (v : Word) : Bool := v.extractLsb' 0 5 &&& e.mask != 0#5

/-- `WAIT EIR.<event>` after a poll has answered `v`: the rest of the call, or the next poll. -/
def waitThen (base : Word) (e : EventBit) (v : Word) (rest : List Turn) : List Turn :=
  if eventSeen e v then rest else eirRead base

/-- `PP <MNEMONIC>`: the write of the command word, and the first poll of `WAIT EIR.PPD`. -/
def hostPpStart (base word : Word) : List Turn := hostWr base 0x100#32 word :: eirRead base

/-- `PP <MNEMONIC>`, after the wait: `PPD` cleared, the status read. -/
def hostPpFinish (base : Word) : List Turn := [hostWr base 0x004#32 0x8#32, hostRd base 0x104#32]

/-- `PP <MNEMONIC>`, after a poll has answered `v`. -/
def hostPpWait (base v : Word) : List Turn := waitThen base .ppd v (hostPpFinish base)

/-- `PP <MNEMONIC> -> r`: the result code in the `PP_STATUS` word read. -/
def hostPpResult (status : Word) : Byte := status.extractLsb' 8 8

/-- The results of a command (R351). -/
def ppResults : List PpResult :=
  [.ok, .errBadCmd, .errBadArg, .errBus, .errPortInUse, .errUnbound, .errNoRoute, .arpHit, .arpPending, .arpNew,
    .rxArpRequest, .rxArpReply, .rxArpOther, .rxIcmpEchoRequest, .rxIcmpEchoReply, .rxUdp, .dropL2Runt, .dropL2Type,
    .dropL2ArpShort, .dropL2Ip4Short, .dropArpBad, .dropIp4Hdr, .dropIp4Csum, .dropIp4Dst, .dropIp4Proto, .dropIcmp,
    .dropUdpLen, .dropUdpPort]

/-- `r`, by which a call goes on: the result whose code the `PP_STATUS` word carries. -/
def hostPpOutcome (status : Word) : Option PpResult := ppResults.find? fun r => r.code == hostPpResult status

/-! ## Host variables -/

/-- The ring variables of the driver: addresses and capacities of the two descriptor arrays, and its indices. -/
structure HostRings where
  /-- `R` -/
  rx : Word
  /-- `T` -/
  tx : Word
  /-- `n` -/
  rxCap : Nat
  /-- `m` -/
  txCap : Nat
  /-- `rx_i` -/
  rxNext : Nat
  /-- `tx_head` -/
  txHead : Nat
  /-- `tx_tail` -/
  txTail : Nat
  /-- `tx_used` -/
  txUsed : Nat
  /-- `host_rx_drop` -/
  rxDrop : Nat
  /-- `host_tx_err` -/
  txErr : Nat
  /-- the host error counter of R332 -/
  dispatchErr : Nat
deriving DecidableEq, Repr

/-- The Rx descriptor the host will inspect next. -/
def HostRings.rxDesc (v : HostRings) : Word := v.rx + 8#32 * ofLen v.rxNext

/-- The Tx descriptor the host will fill next. -/
def HostRings.txHeadDesc (v : HostRings) : Word := v.tx + 8#32 * ofLen v.txHead

/-- The oldest Tx descriptor not yet reclaimed. -/
def HostRings.txTailDesc (v : HostRings) : Word := v.tx + 8#32 * ofLen v.txTail

/-! ## The conditions a call reads in `STATUS` (R141) -/

/-- `RD STATUS`. -/
def statusRead (base : Word) : List Turn := [hostRd base 0x00C#32]

/-- `require STATUS.TX_ACTIVE = 0` (R321), of the value read. -/
def txIdle (status : Word) : Bool := !status.getLsbD 0

/-- `require STATUS.RX_ACTIVE = 0` (R320). -/
def rxIdle (status : Word) : Bool := !status.getLsbD 1

/-- `require STATUS.MDIO_BUSY = 0` (R323, R324). -/
def mdioIdle (status : Word) : Bool := !status.getLsbD 2

/-! ## Driver (R320 to R327) -/

/-- The descriptors of `rx_ring_init` (R320): word 1, then word 0 with `OWN`, `IOC`, and `WRAP` on the last. -/
def rxInitDescs (d : Word) : List Word → List Turn
  | [] => []
  | [b] => [hostMw32 (d + 4#32) b, hostMw32 d 0xE0000000#32]
  | b :: rest => [hostMw32 (d + 4#32) b, hostMw32 d 0xA0000000#32] ++ rxInitDescs (d + 8#32) rest

/-- `rx_ring_init` up to the read of `EIMR` (R320), once `statusRead` has answered a value with `rxIdle`. -/
def rxRingInitFirst (base ring : Word) (bufs : List Word) (maxFrameSize : Word) : List Turn :=
  rxInitDescs ring bufs ++ [hostWr base 0x020#32 maxFrameSize, hostWr base 0x014#32 ring, hostRd base 0x008#32]

/-- The rest of `rx_ring_init`, with `e` the value of `EIMR` (R320). -/
def rxRingInitRest (base e : Word) (loopback : Bool) : List Turn :=
  [hostWr base 0x008#32 (e ||| 0x00000004#32), hostWr base 0x000#32 (if loopback then 0x3#32 else 0x1#32),
    hostWr base 0x01C#32 1#32]

/-- The driver's variables after `rx_ring_init` (R320). -/
def rxRingInitVars (v : HostRings) (ring : Word) (bufs : List Word) : HostRings :=
  { v with rx := ring, rxCap := bufs.length, rxNext := 0 }

/-- The descriptors of the Tx ring initialisation (R321): not ready, `WRAP` on the last. -/
def txInitDescs (d : Word) : Nat → List Turn
  | 0 => []
  | 1 => [hostMw32 (d + 4#32) 0#32, hostMw32 d 0x40000000#32]
  | k + 2 => [hostMw32 (d + 4#32) 0#32, hostMw32 d 0#32] ++ txInitDescs (d + 8#32) (k + 1)

/-- The Tx ring initialisation up to the read of `EIMR` (R321), once `statusRead` has answered a value with `txIdle`. -/
def txRingInitFirst (base ring : Word) (capacity : Nat) : List Turn :=
  txInitDescs ring capacity ++ [hostWr base 0x010#32 ring, hostRd base 0x008#32]

/-- The rest of the Tx ring initialisation (R321). -/
def txRingInitRest (base e : Word) : List Turn := [hostWr base 0x008#32 (e ||| 0x00000002#32)]

/-- The driver's variables after the Tx ring initialisation (R321). -/
def txRingInitVars (v : HostRings) (ring : Word) (capacity : Nat) : HostRings :=
  { v with tx := ring, txCap := capacity, txHead := 0, txTail := 0, txUsed := 0 }

/-- The two `require` lines of `transmit` (R322). -/
def transmitAllowed (v : HostRings) (len : Nat) : Bool := 14 ≤ len && len ≤ 1514 && v.txUsed < v.txCap

/-- `transmit` (R322): word 1, word 0 in one store last, then the activation. -/
def transmitTurns (base : Word) (v : HostRings) (buf : Word) (len : Nat) : List Turn :=
  [hostMw32 (v.txHeadDesc + 4#32) buf,
    hostMw32 v.txHeadDesc
      (0xA0000000#32 ||| (if v.txHead + 1 = v.txCap then 0x40000000#32 else 0#32) ||| ofLen len),
    hostWr base 0x018#32 1#32]

/-- The driver's indices after `transmit` (R322). -/
def transmitVars (v : HostRings) : HostRings :=
  { v with txHead := (v.txHead + 1) % v.txCap, txUsed := v.txUsed + 1 }

/-- `mdio_read` with the first poll of `WAIT EIR.MII` (R323), once `statusRead` has answered a value with `mdioIdle`. -/
def mdioReadStart (base : Word) (pa ra : BitVec 5) : List Turn :=
  [hostWr base 0x004#32 1#32, hostWr base 0x034#32 (mmfrWord 0b10#2 pa ra 0b10#2 0#16)] ++ eirRead base

/-- `mdio_read` after the wait (R323). -/
def mdioReadFinish (base : Word) : List Turn := [hostWr base 0x004#32 1#32, hostRd base 0x034#32]

/-- `mdio_read` after a poll has answered `v` (R323). -/
def mdioReadWait (base v : Word) : List Turn := waitThen base .mii v (mdioReadFinish base)

/-- `return v[15:0]` (R323), of the value the last read returned. -/
def mdioReadValue (v : Word) : Half := lo16 v

/-- `mdio_write` with the first poll of `WAIT EIR.MII` (R324), once `statusRead` has answered a value with `mdioIdle`. -/
def mdioWriteStart (base : Word) (pa ra : BitVec 5) (value : Half) : List Turn :=
  [hostWr base 0x004#32 1#32, hostWr base 0x034#32 (mmfrWord 0b01#2 pa ra 0b10#2 value)] ++ eirRead base

/-- `mdio_write` after the wait (R324). -/
def mdioWriteFinish (base : Word) : List Turn := [hostWr base 0x004#32 1#32]

/-- `mdio_write` after a poll has answered `v` (R324). -/
def mdioWriteWait (base v : Word) : List Turn := waitThen base .mii v (mdioWriteFinish base)

/-- The frame-received service routine begins: `RXF` cleared first (R325). -/
def rxServiceStart (base : Word) : List Turn := [hostWr base 0x004#32 0x00000004#32]

/-- Each pass of its loop begins: `MR32 d -> w0` (R325). -/
def rxServiceInspect (v : HostRings) : List Turn := [hostMr32 v.rxDesc]

/-- Word 0 of a descriptor that holds a received frame (R325), or a completed one to reclaim (R326); the loop ends on
any other. -/
def completedWord (w0 : Word) : Bool := !w0.getLsbD 31 && w0.getLsbD 28

/-- `len <- w0[15:0]` (R325): the length of the frame handed to Layer-2 dispatch. -/
def receivedLen (w0 : Word) : Half := lo16 w0

/-- One received frame taken from its descriptor (R325): the buffer read, the replacement put in if the pool has one,
and the descriptor given back with `WRAP` kept. -/
def rxServiceTake (v : HostRings) (w0 : Word) (replacement : Option Word) : List Turn :=
  [hostMr32 (v.rxDesc + 4#32)] ++
    (match replacement with
      | some nb => [hostMw32 (v.rxDesc + 4#32) nb]
      | none => []) ++
    [hostMw32 v.rxDesc (0xA0000000#32 ||| (w0 &&& 0x40000000#32))]

/-- What Layer-2 dispatch gets of one pass (R325): the buffer `b` read and the length, or nothing if the frame is
dropped for want of a replacement. -/
def rxServiceFrame (b w0 : Word) (replacement : Option Word) : Option (Word × Half) :=
  replacement.map fun _ => (b, receivedLen w0)

/-- The driver's variables after one pass (R325): the next index, and the drop counted if there was no replacement. -/
def rxServiceVars (v : HostRings) (replacement : Option Word) : HostRings :=
  { v with
    rxNext := (v.rxNext + 1) % v.rxCap
    rxDrop := if replacement.isNone then v.rxDrop + 1 else v.rxDrop }

/-- The frame-received service routine ends: re-arm (R325). -/
def rxServiceEnd (base : Word) : List Turn := [hostWr base 0x01C#32 1#32]

/-- The frame-transmitted service routine begins: `TXF` cleared first (R326). -/
def txServiceStart (base : Word) : List Turn := [hostWr base 0x004#32 0x00000002#32]

/-- Each pass of its loop begins, while descriptors are in use: `MR32 d -> w0` (R326). -/
def txServiceInspect (v : HostRings) : List Turn := if v.txUsed > 0 then [hostMr32 v.txTailDesc] else []

/-- One completed Tx descriptor reclaimed (R326): only `WRAP` stays. -/
def txServiceTake (v : HostRings) (w0 : Word) : List Turn :=
  [hostMr32 (v.txTailDesc + 4#32), hostMw32 v.txTailDesc (w0 &&& 0x40000000#32)]

/-- The driver's variables after one reclaimed descriptor (R326): `ERR` is counted. -/
def txServiceVars (v : HostRings) (w0 : Word) : HostRings :=
  { v with
    txTail := (v.txTail + 1) % v.txCap
    txUsed := v.txUsed - 1
    txErr := if w0.getLsbD 27 then v.txErr + 1 else v.txErr }

/-- The link-state query (R327): an `mdio_read` of the PHY's status register, which goes on with `mdioReadWait`. -/
def linkQueryStart (base : Word) (phyAddr statusReg : BitVec 5) : List Turn := mdioReadStart base phyAddr statusReg

/-- The link state in a PHY status value (R327); the bit number is a property of the PHY. -/
def linkUp (status : Half) (phyLinkBit : Nat) : Bool := status.getLsbD phyLinkBit

/-! ## Protocol paths (R328 to R332) -/

/-- The lookup of an ARP resolution (R328). -/
def resolveStart (base a now : Word) : List Turn :=
  [hostWr base 0x108#32 a, hostWr base 0x10C#32 now] ++ hostPpStart base 0x0000000B#32

/-- The reads of the MAC address after `ARP_HIT` (R328): `LO`, then `HI`. -/
def resolveHit (base : Word) : List Turn := [hostRd base 0x10C#32, hostRd base 0x110#32]

/-- The request frame after `ARP_NEW` or `ARP_PENDING` (R328); `transmit` of 42 bytes follows. -/
def resolveRequest (base f a : Word) : List Turn :=
  [hostWr base 0x108#32 f, hostWr base 0x10C#32 a] ++ hostPpStart base 0x00000003#32

/-- An ARP resolution after its lookup has ended with `r` (R328): the address is read, or a request built; no other result
is one of `ARP_RESOLVE`. -/
def resolveNext (base f a : Word) (r : PpResult) : Option (List Turn) :=
  match r with
  | .arpHit => some (resolveHit base)
  | .arpNew | .arpPending => some (resolveRequest base f a)
  | _ => none

/-- `transmit(F, 42)` of the request (R328); the host then blocks. -/
def resolveTransmit (base : Word) (v : HostRings) (f : Word) : List Turn := transmitTurns base v f 42

/-- What a woken or expired resolution does at time `now` (R328): the lookup again, or `TIMEOUT`. -/
def resolveRetry (base a : Word) (now deadline : Nat) : Option (List Turn) :=
  if now ≥ deadline then none else some (resolveStart base a (ofLen now))

/-- The next-hop choice of IPv4 `send` (R329). -/
def sendNexthop (base dest : Word) : List Turn := [hostWr base 0x108#32 dest] ++ hostPpStart base 0x0000000A#32

/-- `RD P7`: the next hop, the frame length or the reply length a command has left there (R329, R332). -/
def readP7 (base : Word) : List Turn := [hostRd base 0x124#32]

/-- `send` after `IP4_NEXTHOP` (R329): an error without a route, else `RD P7 -> hop`. -/
def sendRouted (base : Word) (r : PpResult) : Option (List Turn) :=
  if r = .errNoRoute then none else some (readP7 base)

/-- The IPv4 header of `send` (R329); `readP7` gives `flen` after its completion. -/
def sendIp4Header (base f dest protocol l4len : Word) : List Turn :=
  [hostWr base 0x108#32 f, hostWr base 0x10C#32 dest, hostWr base 0x110#32 protocol, hostWr base 0x114#32 l4len] ++
    hostPpStart base 0x00000005#32

/-- The Ethernet header of `send` (R329). -/
def sendEthHeader (base f lo hi : Word) : List Turn :=
  [hostWr base 0x108#32 f, hostWr base 0x10C#32 lo, hostWr base 0x110#32 hi, hostWr base 0x114#32 0x0800#32] ++
    hostPpStart base 0x00000002#32

/-- `transmit(F, flen)`, the end of `send` (R329). -/
def sendTransmit (base : Word) (v : HostRings) (f flen : Word) : List Turn := transmitTurns base v f flen.toNat

/-- The arguments of a `send` (R329). -/
structure SendCall where
  dest : Word
  protocol : Word
  l4len : Word
deriving DecidableEq, Repr

/-- `send(dest, protocol, l4len)` begins (R329). -/
def SendCall.start (base : Word) (c : SendCall) : List Turn := sendNexthop base c.dest

/-- Its IPv4 header, once the next hop is resolved (R329). -/
def SendCall.header (base f : Word) (c : SendCall) : List Turn := sendIp4Header base f c.dest c.protocol c.l4len

/-- `send_ping_request` up to its `send` (R330). -/
def pingRequest (base f identifier seq : Word) (data : List Byte) : List Turn :=
  [hostMwb (f + 42#32) data, hostWr base 0x108#32 f, hostWr base 0x10C#32 identifier, hostWr base 0x110#32 seq,
    hostWr base 0x114#32 (ofLen data.length)] ++ hostPpStart base 0x00000006#32

/-- `send(dest, 1, 8 + n)` of a ping (R330). -/
def pingSend (dest : Word) (data : List Byte) : SendCall := ⟨dest, 1#32, ofLen (8 + data.length)⟩

/-- An echo reply with the identifier read in `P2` is for the waiter of `identifier` (R330, R332). -/
def pingMatches (identifier p2 : Word) : Bool := p2 == identifier

/-- UDP `bind` (R331). -/
def udpBindCall (base k port : Word) : List Turn :=
  [hostWr base 0x108#32 k, hostWr base 0x10C#32 port] ++ hostPpStart base 0x0000000D#32

/-- UDP `send` up to its IPv4 `send` (R331). -/
def udpSend (base f k destPort destAddr : Word) (payload : List Byte) (checksum : Bool) : List Turn :=
  [hostMwb (f + 42#32) payload, hostWr base 0x108#32 f, hostWr base 0x10C#32 k, hostWr base 0x110#32 destPort,
    hostWr base 0x114#32 (ofLen payload.length), hostWr base 0x118#32 destAddr] ++
    hostPpStart base (if checksum then 0x00000108#32 else 0x00000008#32)

/-- `send(dest_addr, 17, 8 + n)` of a datagram (R331). -/
def udpSendIp (destAddr : Word) (payload : List Byte) : SendCall := ⟨destAddr, 17#32, ofLen (8 + payload.length)⟩

/-- The end point is given up (R331). -/
def udpUnbindCall (base k : Word) : List Turn := [hostWr base 0x108#32 k] ++ hostPpStart base 0x0000000E#32

/-- Layer-2 dispatch of a received frame (R332): the classification. -/
def dispatchStart (base b len now : Word) : List Turn :=
  [hostWr base 0x108#32 b, hostWr base 0x10C#32 len, hostWr base 0x110#32 now] ++ hostPpStart base 0x00000009#32

/-- What Layer-2 dispatch does next with the block, by the result of the classification (R332): `b`, `len` the frame,
`ftx` a buffer for an answer.  The results not listed need no access. -/
def dispatchNext (base b len ftx : Word) (r : PpResult) : List Turn :=
  match r with
  | .rxArpRequest =>
    [hostRd base 0x10C#32, hostRd base 0x110#32, hostRd base 0x114#32, hostWr base 0x108#32 ftx] ++
      hostPpStart base 0x00000004#32
  | .rxArpOther => [hostRd base 0x11C#32, hostRd base 0x10C#32]
  | .rxArpReply => [hostRd base 0x10C#32]
  | .rxIcmpEchoRequest => [hostWr base 0x108#32 b, hostWr base 0x10C#32 len] ++ hostPpStart base 0x00000007#32
  | .rxIcmpEchoReply => [hostRd base 0x10C#32, hostRd base 0x110#32, hostRd base 0x114#32]
  | .rxUdp =>
    [hostRd base 0x10C#32, hostRd base 0x110#32, hostRd base 0x114#32, hostRd base 0x118#32, hostRd base 0x11C#32]
  | _ => []

/-- After the command `dispatchNext` has started (R332): the echo reply's length is read. -/
def dispatchReplyLen (base : Word) (r : PpResult) : List Turn :=
  match r with
  | .rxIcmpEchoRequest => readP7 base
  | _ => []

/-- The frame the dispatch transmits (R332): `transmit(Ftx, 42)`, or `transmit(b, flen)` with the length read. -/
def dispatchTransmit (base : Word) (v : HostRings) (b ftx flen : Word) (r : PpResult) : List Turn :=
  match r with
  | .rxArpRequest => transmitTurns base v ftx 42
  | .rxIcmpEchoRequest => transmitTurns base v b flen.toNat
  | _ => []

/-- The waiters for the address in `P1` are woken (R332); after `RX_ARP_OTHER` only if `P5`, as read, is not 0. -/
def dispatchWakes (r : PpResult) (p5 : Word) : Bool :=
  match r with
  | .rxArpRequest | .rxArpReply => true
  | .rxArpOther => p5 != 0#32
  | _ => false

/-- `free(b)` in the dispatch (R332): not where the frame goes to an application, nor where its buffer is transmitted. -/
def dispatchFrees (r : PpResult) : Bool :=
  match r with
  | .rxIcmpEchoRequest | .rxUdp => false
  | _ => true

/-- The driver's variables after the dispatch of one frame (R332): `ERR_BUS` and `ERR_BAD_ARG` are counted. -/
def dispatchVars (v : HostRings) (r : PpResult) : HostRings :=
  { v with dispatchErr := if r = .errBus || r = .errBadArg then v.dispatchErr + 1 else v.dispatchErr }

/-! ## Configuration (R333, R334) -/

/-- The network mask of length `p` (R157): `p` one-bits from bit 31 down. -/
def netmaskOf (p : Nat) : Word := ~~~(0xFFFFFFFF#32 >>> p)

/-- `set ip4 addr` with well-formed input (R333). -/
def setIp4Addr (base addr : Word) (p : Nat) : List Turn :=
  [hostWr base 0x140#32 addr, hostWr base 0x144#32 (netmaskOf p)]

/-- `get ip4 addr` (R333). -/
def getIp4Addr (base : Word) : List Turn := [hostRd base 0x140#32, hostRd base 0x144#32]

/-- `set loopback` may go on (R333): both rings are idle in the `STATUS` value read. -/
def loopbackAllowed (status : Word) : Bool := txIdle status && rxIdle status

/-- `set loopback` (R333), the read. -/
def setLoopbackFirst (base : Word) : List Turn := [hostRd base 0x000#32]

/-- `set loopback` (R333), the write: `CTRL` as read with only `LOOP` changed. -/
def setLoopbackRest (base ctrl : Word) (on : Bool) : List Turn :=
  [hostWr base 0x000#32 ((ctrl &&& 0xFFFFFFFD#32) ||| (if on then 0x2#32 else 0#32))]

/-- `stats`: the reads of the eighteen counters (R333). -/
def statsReads (base : Word) : List Turn := (List.range 18).map fun i => hostRd base (0x040#32 + 4#32 * ofLen i)

/-- `reset` (R333). -/
def resetCall (base : Word) : List Turn := [hostWr base 0x000#32 0x80000000#32]

/-- Bring-up, step (1) (R334): the identity registers. -/
def bringUpIdentity (base : Word) (mac : Mac) (addr mask gateway : Word) : List Turn :=
  [hostWr base 0x028#32 (macHi mac), hostWr base 0x024#32 (macLo mac), hostWr base 0x140#32 addr,
    hostWr base 0x144#32 mask, hostWr base 0x148#32 gateway]

/-- Bring-up, step (3) (R334): the Tx ring (R321), then the Rx ring (R320); `eTx`, `eRx` the values of `EIMR` read. -/
def bringUpRings (base txRing rxRing : Word) (txCap : Nat) (bufs : List Word) (maxFrameSize eTx eRx : Word)
    (loopback : Bool) : List Turn :=
  txRingInitFirst base txRing txCap ++ txRingInitRest base eTx ++ rxRingInitFirst base rxRing bufs maxFrameSize ++
    rxRingInitRest base eRx loopback

/-- Bring-up, step (4) (R334): the events the host wants. -/
def bringUpEvents (base events : Word) : List Turn := [hostWr base 0x008#32 events]

/-- The order of the bring-up (R334): identity, PHY (R324, R327), rings, events. -/
def bringUp (identity phy rings events : List Turn) : List Turn := identity ++ phy ++ rings ++ events

end Sys2Proof.Machine
end

