-- ==== Sys2Proof/Tests/Slice0.lean ====
section
/-! SUPPORT. Tests of the model against spec 95_test_vectors (the row is named at each test) and spec 30_encoding, and
for every statement with hypotheses a witness that they can be met. -/

namespace Sys2Proof.Tests

open Sys2Proof Sys2Proof.Machine

/-! ## Helpers -/

/-- A field of the next state. -/
def view {α : Type} (r : Result) (f : State → α) : Option α :=
  match r with
  | .next t => some (f t)
  | _ => none

/-- The fault of an outcome. -/
def faultOf (r : Result) : Option Fault :=
  match r with
  | .fault f => some f
  | _ => none

/-- The refusal of an outcome. -/
def refusalOf (r : Result) : Option Refusal :=
  match r with
  | .refused f => some f
  | _ => none

/-- The standard set-up of 95 part 0. -/
def std : State :=
  { State.reset with
    machi := 0x0200#16
    maclo := 0x00000002#32
    ip4Addr := 0xC0A80802#32
    ip4Mask := 0xFFFFFF00#32
    ip4Gw := 0xC0A80801#32 }

/-- A command pending, with `P0` .. `P4` and memory. -/
def cmd (p0 p1 p2 p3 p4 : Word) (m : Memory) : State :=
  { std with ppBusy := true, p := ⟨p0, p1, p2, p3, p4, 0x55#32, 0x66#32, 0x77#32⟩, mem := m }

/-- A Tx ring at 0x20000100 whose first descriptor has the word 0 `w0` and the buffer `buf`; TXDMA's turn. -/
def txState (w0 buf : Word) : State :=
  { std with
    ctrlEn := true
    txActive := true
    tdsr := 0x20000100#32
    tdcur := 0x20000100#32
    mem := store32 (store32 (storeBytes [] 0x20001000#32 [0xAA#8, 0xBB#8, 0xCC#8]) 0x20000100#32 w0) 0x20000104#32 buf
    schedule := [.txdma] }

/-- The fields of word 0 of an owned descriptor without `IOC` and `WRAP`. -/
def ctl (len : Half) : DescCtl := ⟨false, false, false, false, 0#11, len⟩

/-- An Rx ring at 0x20000200 whose first descriptor is `w0`, `buf`; WIRE's turn with the frame `f`. -/
def rxState (w0 buf : Word) (f : List Byte) : State :=
  { std with
    ctrlEn := true
    rxActive := true
    rxmax := 1514#16
    rdsr := 0x20000200#32
    rdcur := 0x20000200#32
    mem := store32 (store32 [] 0x20000200#32 w0) 0x20000204#32 buf
    wireIn := f
    schedule := [.wire f] }

/-- Both rings in loopback mode: the Tx descriptor of `txState` and the Rx descriptor of P5. -/
def loopState (w0 : Word) : State :=
  { txState w0 0x20001000#32 with
    ctrlLoop := true
    rxActive := true
    rxmax := 1514#16
    rdsr := 0x20000200#32
    rdcur := 0x20000200#32
    mem := store32 (store32 (txState w0 0x20001000#32).mem 0x20000200#32 0xE0000000#32) 0x20000204#32 0x20002000#32 }

/-- `FR_ARPREQ_IN`, its first 42 bytes, at 0x20002000. -/
def arpFrame : Memory :=
  storeBytes [] 0x20002000#32
    [0xFF#8, 0xFF#8, 0xFF#8, 0xFF#8, 0xFF#8, 0xFF#8, 0x02#8, 0#8, 0#8, 0#8, 0#8, 0x64#8, 0x08#8, 0x06#8,
      0#8, 1#8, 0x08#8, 0#8, 6#8, 4#8, 0#8, 1#8, 0x02#8, 0#8, 0#8, 0#8, 0#8, 0x64#8, 0xC0#8, 0xA8#8, 0x08#8, 0x64#8,
      0#8, 0#8, 0#8, 0#8, 0#8, 0#8, 0xC0#8, 0xA8#8, 0x08#8, 0x02#8]

/-- `FR_UDP_IN` at 0x20002000; the padding is zero. -/
def udpFrame : Memory :=
  storeBytes [] 0x20002000#32
    [0x02#8, 0#8, 0#8, 0#8, 0#8, 0x02#8, 0x02#8, 0#8, 0#8, 0#8, 0#8, 0x64#8, 0x08#8, 0#8,
      0x45#8, 0#8, 0#8, 0x21#8, 0#8, 0#8, 0#8, 0#8, 0x40#8, 0x11#8, 0xE9#8, 0x15#8, 0xC0#8, 0xA8#8, 0x08#8, 0x64#8,
      0xC0#8, 0xA8#8, 0x08#8, 0x02#8, 0xC3#8, 0x50#8, 0x22#8, 0xB7#8, 0#8, 0x0D#8, 0x44#8, 0x43#8,
      0x68#8, 0x65#8, 0x6C#8, 0x6C#8, 0x6F#8]

/-- `FR_PING_IN` at 0x20002000; the padding is zero. -/
def pingFrame : Memory :=
  storeBytes [] 0x20002000#32
    [0x02#8, 0#8, 0#8, 0#8, 0#8, 0x02#8, 0x02#8, 0#8, 0#8, 0#8, 0#8, 0x64#8, 0x08#8, 0#8,
      0x45#8, 0#8, 0#8, 0x24#8, 0#8, 0#8, 0#8, 0#8, 0x40#8, 0x01#8, 0xE9#8, 0x22#8, 0xC0#8, 0xA8#8, 0x08#8, 0x64#8,
      0xC0#8, 0xA8#8, 0x08#8, 0x02#8, 0x08#8, 0#8, 0x54#8, 0x35#8, 0x12#8, 0x34#8, 0#8, 1#8,
      0x61#8, 0x62#8, 0x63#8, 0x64#8, 0x65#8, 0x66#8, 0x67#8, 0x68#8]

/-- The ARP cache with one entry in slot 0. -/
def cacheOf (e : ArpEntry) : Vector ArpEntry 16 := (Vector.replicate 16 ArpEntry.zero).set 0 e

/-- A full cache: 10.0.0.1 to 10.0.0.16, timestamps 101 to 116 (95 row T5). -/
def fullCache : Vector ArpEntry 16 :=
  Vector.ofFn fun i => ⟨.resolved, 0x0A000001#32 + ofLen i.val, 0x020000000001#48, ofLen (101 + i.val)⟩

/-- Slot 0 bound to 8887. -/
def ports8887 : Vector Half 8 := (Vector.replicate 8 0#16).set 0 8887#16

/-! ## WellFormed: an ill-formed term for each check -/

/-- R20: 0x000 is `CTRL`, 0x03A no multiple of 4; R21: 0x038 and 0xFFC are reserved. -/
theorem test_wellFormed_reserved :
    (Instr.reserved 0x000#12 .read).wellFormed = false ∧ (Instr.reserved 0x03A#12 .read).wellFormed = false ∧
      (Instr.reserved 0x038#12 .read).wellFormed = true ∧ (Instr.reserved 0xFFC#12 .read).wellFormed = true := by decide

/-- R113, R183: a read frame is an operation; 95 rows D5v and D6v are none. -/
theorem test_wellFormed_mmfrNoOperation :
    (Instr.mmfrNoOperation 0x60060000#32).wellFormed = false ∧ (Instr.mmfrNoOperation 0x50029200#32).wellFormed = false ∧
      (Instr.mmfrNoOperation 0x00061234#32).wellFormed = true ∧
      (Instr.mmfrNoOperation 0x70060000#32).wellFormed = true := by decide

/-- R120: `NOP` and `UDP_HDR.C` are legal; 95 rows I2 to I7 are not. -/
theorem test_wellFormed_ppIllegal :
    (Instr.ppIllegal 0x00000000#32).wellFormed = false ∧ (Instr.ppIllegal 0x00000108#32).wellFormed = false ∧
      (Instr.ppIllegal 0x0000000F#32).wellFormed = true ∧ (Instr.ppIllegal 0x00000200#32).wellFormed = true ∧
      (Instr.ppIllegal 0x00000101#32).wellFormed = true := by decide

/-! ## Decode: words written out from the encoding tables -/

/-- R20, R111: the accesses of registers 0x000 to 0x034, each an offset, a direction bit 12 and data from bit 13. -/
theorem test_decode_mmio_dma :
  decode .mmio [0x00#8, 0x00#8, 0x00#8, 0x00#8, 0x00#8, 0x00#8] = .ok (.ctrl .read) ∧
  decode .mmio [0x04#8, 0x50#8, 0x00#8, 0x01#8, 0x15#8, 0x18#8] = .ok (.eir (.write 0xC0A80802#32)) ∧
  decode .mmio [0x08#8, 0x00#8, 0x00#8, 0x00#8, 0x00#8, 0x00#8] = .ok (.eimr .read) ∧
  decode .mmio [0x0C#8, 0x00#8, 0x00#8, 0x00#8, 0x00#8, 0x00#8] = .ok (.status .read) ∧
  decode .mmio [0x10#8, 0x50#8, 0x00#8, 0x01#8, 0x15#8, 0x18#8] = .ok (.tdsr (.write 0xC0A80802#32)) ∧
  decode .mmio [0x14#8, 0x00#8, 0x00#8, 0x00#8, 0x00#8, 0x00#8] = .ok (.rdsr .read) ∧
  decode .mmio [0x18#8, 0x00#8, 0x00#8, 0x00#8, 0x00#8, 0x00#8] = .ok (.tdar .read) ∧
  decode .mmio [0x1C#8, 0x50#8, 0x00#8, 0x01#8, 0x15#8, 0x18#8] = .ok (.rdar (.write 0xC0A80802#32)) ∧
  decode .mmio [0x20#8, 0x00#8, 0x00#8, 0x00#8, 0x00#8, 0x00#8] = .ok (.rxmax .read) ∧
  decode .mmio [0x24#8, 0x00#8, 0x00#8, 0x00#8, 0x00#8, 0x00#8] = .ok (.maclo .read) ∧
  decode .mmio [0x28#8, 0x50#8, 0x00#8, 0x01#8, 0x15#8, 0x18#8] = .ok (.machi (.write 0xC0A80802#32)) ∧
  decode .mmio [0x2C#8, 0x00#8, 0x00#8, 0x00#8, 0x00#8, 0x00#8] = .ok (.tdcur .read) ∧
  decode .mmio [0x30#8, 0x00#8, 0x00#8, 0x00#8, 0x00#8, 0x00#8] = .ok (.rdcur .read) ∧
  decode .mmio [0x34#8, 0x50#8, 0x00#8, 0x01#8, 0x15#8, 0x18#8] = .ok (.mmfr (.write 0xC0A80802#32)) := by decide

/-- R20, R111: the accesses of registers 0x040 to 0x084, each an offset, a direction bit 12 and data from bit 13. -/
theorem test_decode_mmio_counters :
  decode .mmio [0x40#8, 0x00#8, 0x00#8, 0x00#8, 0x00#8, 0x00#8] = .ok (.cntTxSent .read) ∧
  decode .mmio [0x44#8, 0x50#8, 0x00#8, 0x01#8, 0x15#8, 0x18#8] = .ok (.cntTxErr (.write 0xC0A80802#32)) ∧
  decode .mmio [0x48#8, 0x00#8, 0x00#8, 0x00#8, 0x00#8, 0x00#8] = .ok (.cntRxStored .read) ∧
  decode .mmio [0x4C#8, 0x00#8, 0x00#8, 0x00#8, 0x00#8, 0x00#8] = .ok (.cntRxNodesc .read) ∧
  decode .mmio [0x50#8, 0x50#8, 0x00#8, 0x01#8, 0x15#8, 0x18#8] = .ok (.cntRxOversize (.write 0xC0A80802#32)) ∧
  decode .mmio [0x54#8, 0x00#8, 0x00#8, 0x00#8, 0x00#8, 0x00#8] = .ok (.cntL2ArpAcc .read) ∧
  decode .mmio [0x58#8, 0x00#8, 0x00#8, 0x00#8, 0x00#8, 0x00#8] = .ok (.cntL2Ip4Acc .read) ∧
  decode .mmio [0x5C#8, 0x50#8, 0x00#8, 0x01#8, 0x15#8, 0x18#8] = .ok (.cntL2ArpDrop (.write 0xC0A80802#32)) ∧
  decode .mmio [0x60#8, 0x00#8, 0x00#8, 0x00#8, 0x00#8, 0x00#8] = .ok (.cntL2Ip4Drop .read) ∧
  decode .mmio [0x64#8, 0x00#8, 0x00#8, 0x00#8, 0x00#8, 0x00#8] = .ok (.cntL2OtherDrop .read) ∧
  decode .mmio [0x68#8, 0x50#8, 0x00#8, 0x01#8, 0x15#8, 0x18#8] = .ok (.cntArpBad (.write 0xC0A80802#32)) ∧
  decode .mmio [0x6C#8, 0x00#8, 0x00#8, 0x00#8, 0x00#8, 0x00#8] = .ok (.cntIp4Badhdr .read) ∧
  decode .mmio [0x70#8, 0x00#8, 0x00#8, 0x00#8, 0x00#8, 0x00#8] = .ok (.cntIp4Badcsum .read) ∧
  decode .mmio [0x74#8, 0x50#8, 0x00#8, 0x01#8, 0x15#8, 0x18#8] = .ok (.cntIp4Baddst (.write 0xC0A80802#32)) ∧
  decode .mmio [0x78#8, 0x00#8, 0x00#8, 0x00#8, 0x00#8, 0x00#8] = .ok (.cntIp4Badproto .read) ∧
  decode .mmio [0x7C#8, 0x00#8, 0x00#8, 0x00#8, 0x00#8, 0x00#8] = .ok (.cntIcmpDrop .read) ∧
  decode .mmio [0x80#8, 0x50#8, 0x00#8, 0x01#8, 0x15#8, 0x18#8] = .ok (.cntUdpBadlen (.write 0xC0A80802#32)) ∧
  decode .mmio [0x84#8, 0x00#8, 0x00#8, 0x00#8, 0x00#8, 0x00#8] = .ok (.cntUdpNoport .read) := by decide

/-- R20, R111: the accesses of registers 0x100 to 0x124, each an offset, a direction bit 12 and data from bit 13. -/
theorem test_decode_mmio_command :
  decode .mmio [0x00#8, 0x01#8, 0x00#8, 0x00#8, 0x00#8, 0x00#8] = .ok (.ppCmd .read) ∧
  decode .mmio [0x04#8, 0x51#8, 0x00#8, 0x01#8, 0x15#8, 0x18#8] = .ok (.ppStatus (.write 0xC0A80802#32)) ∧
  decode .mmio [0x08#8, 0x01#8, 0x00#8, 0x00#8, 0x00#8, 0x00#8] = .ok (.p0 .read) ∧
  decode .mmio [0x0C#8, 0x01#8, 0x00#8, 0x00#8, 0x00#8, 0x00#8] = .ok (.p1 .read) ∧
  decode .mmio [0x10#8, 0x51#8, 0x00#8, 0x01#8, 0x15#8, 0x18#8] = .ok (.p2 (.write 0xC0A80802#32)) ∧
  decode .mmio [0x14#8, 0x01#8, 0x00#8, 0x00#8, 0x00#8, 0x00#8] = .ok (.p3 .read) ∧
  decode .mmio [0x18#8, 0x01#8, 0x00#8, 0x00#8, 0x00#8, 0x00#8] = .ok (.p4 .read) ∧
  decode .mmio [0x1C#8, 0x51#8, 0x00#8, 0x01#8, 0x15#8, 0x18#8] = .ok (.p5 (.write 0xC0A80802#32)) ∧
  decode .mmio [0x20#8, 0x01#8, 0x00#8, 0x00#8, 0x00#8, 0x00#8] = .ok (.p6 .read) ∧
  decode .mmio [0x24#8, 0x01#8, 0x00#8, 0x00#8, 0x00#8, 0x00#8] = .ok (.p7 .read) := by decide

/-- R20, R111: the accesses of registers 0x140 to 0x14C, each an offset, a direction bit 12 and data from bit 13. -/
theorem test_decode_mmio_layer3 :
  decode .mmio [0x40#8, 0x01#8, 0x00#8, 0x00#8, 0x00#8, 0x00#8] = .ok (.ip4Addr .read) ∧
  decode .mmio [0x44#8, 0x51#8, 0x00#8, 0x01#8, 0x15#8, 0x18#8] = .ok (.ip4Mask (.write 0xC0A80802#32)) ∧
  decode .mmio [0x48#8, 0x01#8, 0x00#8, 0x00#8, 0x00#8, 0x00#8] = .ok (.ip4Gw .read) ∧
  decode .mmio [0x4C#8, 0x01#8, 0x00#8, 0x00#8, 0x00#8, 0x00#8] = .ok (.ip4Ttl .read) := by decide

/-- R20, R111: the accesses of registers 0x150 to 0x160, each an offset, a direction bit 12 and data from bit 13. -/
theorem test_decode_mmio_cache_window :
  decode .mmio [0x50#8, 0x01#8, 0x00#8, 0x00#8, 0x00#8, 0x00#8] = .ok (.arpSel .read) ∧
  decode .mmio [0x54#8, 0x51#8, 0x00#8, 0x01#8, 0x15#8, 0x18#8] = .ok (.arpIp (.write 0xC0A80802#32)) ∧
  decode .mmio [0x58#8, 0x01#8, 0x00#8, 0x00#8, 0x00#8, 0x00#8] = .ok (.arpMaclo .read) ∧
  decode .mmio [0x5C#8, 0x01#8, 0x00#8, 0x00#8, 0x00#8, 0x00#8] = .ok (.arpMachi .read) ∧
  decode .mmio [0x60#8, 0x51#8, 0x00#8, 0x01#8, 0x15#8, 0x18#8] = .ok (.arpTs (.write 0xC0A80802#32)) := by decide

/-- R20, R111: the accesses of registers 0x180 to 0x19C, each an offset, a direction bit 12 and data from bit 13. -/
theorem test_decode_mmio_ports :
  decode .mmio [0x80#8, 0x01#8, 0x00#8, 0x00#8, 0x00#8, 0x00#8] = .ok (.udpPort0 .read) ∧
  decode .mmio [0x84#8, 0x51#8, 0x00#8, 0x01#8, 0x15#8, 0x18#8] = .ok (.udpPort1 (.write 0xC0A80802#32)) ∧
  decode .mmio [0x88#8, 0x01#8, 0x00#8, 0x00#8, 0x00#8, 0x00#8] = .ok (.udpPort2 .read) ∧
  decode .mmio [0x8C#8, 0x01#8, 0x00#8, 0x00#8, 0x00#8, 0x00#8] = .ok (.udpPort3 .read) ∧
  decode .mmio [0x90#8, 0x51#8, 0x00#8, 0x01#8, 0x15#8, 0x18#8] = .ok (.udpPort4 (.write 0xC0A80802#32)) ∧
  decode .mmio [0x94#8, 0x01#8, 0x00#8, 0x00#8, 0x00#8, 0x00#8] = .ok (.udpPort5 .read) ∧
  decode .mmio [0x98#8, 0x01#8, 0x00#8, 0x00#8, 0x00#8, 0x00#8] = .ok (.udpPort6 .read) ∧
  decode .mmio [0x9C#8, 0x51#8, 0x00#8, 0x01#8, 0x15#8, 0x18#8] = .ok (.udpPort7 (.write 0xC0A80802#32)) := by decide

/-- R21, R161: the first and last reserved offsets. -/
theorem test_decode_mmio_reserved :
  decode .mmio [0x38#8, 0x00#8, 0#8, 0#8, 0#8, 0#8] = .ok (.reserved 0x038#12 .read) ∧
  decode .mmio [0xFC#8, 0x1F#8, 0#8, 0#8, 0#8, 0#8] = .ok (.reserved 0xFFC#12 (.write 0#32)) := by decide

/-- What is no encoded object (R83, R110). -/
theorem test_decode_rejects :
  decode .mmio [0x02#8, 0x00#8, 0#8, 0#8, 0#8, 0#8] = .rejected .misalignedOffset ∧
  decode .mmio [0x00#8, 0x00#8, 0#8, 0#8, 0#8, 0x20#8] = .rejected .paddingNotZero ∧
  decode .mmfr [0x00#8, 0x00#8, 0x06#8] = .rejected .wrongLength ∧
  decode .ppCmd [] = .rejected .wrongLength := by decide

/-- R112: `OWN` 31, `WRAP` 30, `IOC` 29, `DONE` 28, `ERR` 27, `LEN` 15:0; 95 rows X1, X8, X6, Y1, Y3. -/
theorem test_decode_descriptors :
  decode .txDesc [0x2A#8, 0x00#8, 0x00#8, 0xA0#8, 0x00#8, 0x10#8, 0x00#8, 0x20#8] =
    .ok (.txd ⟨false, true, false, false, 0#11, 42#16⟩ 0x20001000#32) ∧
  decode .txDesc [0x05#8, 0x00#8, 0xFF#8, 0x87#8, 0x00#8, 0x10#8, 0x00#8, 0x20#8] =
    .ok (.txd ⟨false, false, false, false, 0x7FF#11, 5#16⟩ 0x20001000#32) ∧
  decode .txDesc [0x2A#8, 0x00#8, 0x00#8, 0x30#8, 0x00#8, 0x10#8, 0x00#8, 0x20#8] =
    .ok (.txdStop ⟨false, true, true, false, 0#11, 42#16⟩) ∧
  decode .rxDesc [0x00#8, 0x00#8, 0x00#8, 0xC8#8, 0x00#8, 0x20#8, 0x00#8, 0x20#8] =
    .ok (.rxd ⟨true, false, false, true, 0#11, 0#16⟩ 0x20002000#32) ∧
  decode .rxDesc [0x3C#8, 0x00#8, 0x00#8, 0x70#8, 0x00#8, 0x20#8, 0x00#8, 0x20#8] =
    .ok (.rxdStop ⟨true, true, true, false, 0#11, 60#16⟩) := by decide

/-- R113: `ST` 31:30, `OP` 29:28, `PA` 27:23, `RA` 22:18, `TA` 17:16, `DATA` 15:0; the words of 95 part 2.2. -/
theorem test_decode_management :
  decode .mmfr [0x00#8, 0x00#8, 0x06#8, 0x60#8] = .ok (.mdioRead 0#5 1#5 2#2 0#16) ∧
  decode .mmfr [0x00#8, 0x00#8, 0xFE#8, 0x6F#8] = .ok (.mdioRead 31#5 31#5 2#2 0#16) ∧
  decode .mmfr [0x00#8, 0x92#8, 0x02#8, 0x50#8] = .ok (.mdioWrite 0#5 0#5 2#2 0x9200#16) ∧
  decode .mmfr [0x34#8, 0x12#8, 0x06#8, 0x00#8] = .ok (.mmfrNoOperation 0x00061234#32) ∧
  decode .mmfr [0x00#8, 0x00#8, 0x06#8, 0x70#8] = .ok (.mmfrNoOperation 0x70060000#32) := by decide

/-- R114: the command words of R118. -/
theorem test_decode_commands :
  decode .ppCmd [0x00#8, 0#8, 0#8, 0#8] = .ok .nop ∧ decode .ppCmd [0x01#8, 0#8, 0#8, 0#8] = .ok .cksum ∧
  decode .ppCmd [0x02#8, 0#8, 0#8, 0#8] = .ok .ethHdr ∧ decode .ppCmd [0x03#8, 0#8, 0#8, 0#8] = .ok .arpReq ∧
  decode .ppCmd [0x04#8, 0#8, 0#8, 0#8] = .ok .arpReply ∧ decode .ppCmd [0x05#8, 0#8, 0#8, 0#8] = .ok .ip4Hdr ∧
  decode .ppCmd [0x06#8, 0#8, 0#8, 0#8] = .ok .icmpEchoReq ∧
  decode .ppCmd [0x07#8, 0#8, 0#8, 0#8] = .ok .icmpEchoReply ∧
  decode .ppCmd [0x08#8, 0#8, 0#8, 0#8] = .ok (.udpHdr false) ∧
  decode .ppCmd [0x08#8, 1#8, 0#8, 0#8] = .ok (.udpHdr true) ∧
  decode .ppCmd [0x09#8, 0#8, 0#8, 0#8] = .ok .rxClassify ∧ decode .ppCmd [0x0A#8, 0#8, 0#8, 0#8] = .ok .ip4Nexthop ∧
  decode .ppCmd [0x0B#8, 0#8, 0#8, 0#8] = .ok .arpResolve ∧ decode .ppCmd [0x0C#8, 0#8, 0#8, 0#8] = .ok .arpUpdate ∧
  decode .ppCmd [0x0D#8, 0#8, 0#8, 0#8] = .ok .udpBind ∧ decode .ppCmd [0x0E#8, 0#8, 0#8, 0#8] = .ok .udpUnbind := by
  decide

/-- R120: 95 rows I2, I4 to I7. -/
theorem test_decode_illegal_commands :
  decode .ppCmd [0x0F#8, 0#8, 0#8, 0#8] = .ok (.ppIllegal 0x0000000F#32) ∧
  decode .ppCmd [0#8, 2#8, 0#8, 0#8] = .ok (.ppIllegal 0x00000200#32) ∧
  decode .ppCmd [0#8, 0#8, 0#8, 0x80#8] = .ok (.ppIllegal 0x80000000#32) ∧
  decode .ppCmd [0#8, 1#8, 0#8, 0#8] = .ok (.ppIllegal 0x00000100#32) ∧
  decode .ppCmd [9#8, 1#8, 0#8, 0#8] = .ok (.ppIllegal 0x00000109#32) := by decide

/-- The table's numbering: `WR TDSR`, a Tx descriptor, a management word, a command. -/
theorem test_decodeTableWord :
  decodeTableWord 12 0x00C = some (.status .read) ∧
  decodeTableWord 48 0x040000203010 = some (.tdsr (.write 0x20000101#32)) ∧
  decodeTableWord 64 0x20001000A000002A = some (.txd ⟨false, true, false, false, 0#11, 42#16⟩ 0x20001000#32) ∧
  decodeTableWord 32 0x60060000 = some (.mdioRead 0#5 1#5 2#2 0#16) ∧
  decodeTableWord 32 0x0000000B = some .arpResolve := by decide

/-- `withFetchWord` places a word where the next step runs it: a command, and `TXD_STOP`. -/
theorem test_withFetchWord :
  view (step (State.reset.withFetchWord 32 0x0000000B)) (fun t => t.ppResult) = some .arpNew ∧
  view (step (State.reset.withFetchWord 12 0x14C)) (fun t => t.hostData) = some 0x40#32 ∧
  view (step (State.reset.withFetchWord 64 0x200010003000002A)) (fun t => (t.txActive, t.tdcur)) =
    some (false, 0x20000000#32) := by decide

/-! ## One step: registers (95 part 2.1) -/

/-- M12; M24. -/
theorem test_ctrl :
  view (exec (.ctrl (.write 0x7FFFFFFF#32)) State.reset) ctrlWord = some 0x00000003#32 ∧
  view (exec (.ctrl (.write 0x00000002#32)) { std with ctrlEn := true, txActive := true, rxActive := true, eir := 4#5 })
      (fun t => (ctrlWord t, t.txActive, t.rxActive, t.eir)) = some (2#32, false, false, 4#5) := by decide

/-- M13, E7: the `EN` bit of the same write is not applied. -/
theorem test_ctrl_resets :
  view (exec (.ctrl (.write 0x80000001#32)) { std with eir := 0x10#5, halted := true })
    (fun t => (ctrlWord t, statusWord t, t.eir)) = some (0#32, 0#32, 0#5) ∧
  view (exec (.ctrl (.write 0x80000001#32)) { std with ip4Ttl := 1#8, mem := [(1, 2#8)] })
    (fun t => (t.maclo, t.ip4Ttl, t.mem)) = some (0#32, 0x40#8, [(1, 2#8)]) := by decide

/-- M14, M15. -/
theorem test_eir :
  view (exec (.eir (.write 0x00000004#32)) { std with eir := 0x06#5 }) State.eir = some 0x02#5 ∧
  view (exec (.eir (.write 0xFFFFFFE0#32)) { std with eir := 0x02#5 }) State.eir = some 0x02#5 := by decide

/-- M9. -/
theorem test_eimr : view (exec (.eimr (.write 0xFFFFFFFF#32)) std) State.eimr = some 0x1F#5 := by decide

/-- M16, M17, X12. -/
theorem test_status :
  view (exec (.status .read) { std with eir := 2#5, eimr := 4#5 }) State.hostData = some 0x00000000#32 ∧
  view (exec (.status .read) { std with eir := 2#5, eimr := 2#5 }) State.hostData = some 0x00000020#32 ∧
  view (exec (.status .read) { std with halted := true }) State.hostData = some 0x00000010#32 ∧
  view (exec (.status .read) { std with txActive := true, rxActive := true }) State.hostData = some 0x00000003#32 ∧
  view (exec (.status .read) { std with mdioBusy := true, ppBusy := true }) State.hostData = some 0x0000000C#32 := by
  decide

/-- M4, M5, M6. -/
theorem test_tdsr :
  view (exec (.tdsr (.write 0x20000100#32)) { std with txActive := true }) (fun t => (t.tdsr, t.tdcur)) =
    some (0#32, 0#32) ∧
  view (exec (.tdsr (.write 0x20000105#32)) std) (fun t => (t.tdsr, t.tdcur)) =
    some (0x20000100#32, 0x20000100#32) ∧
  view (exec (.tdsr (.write 0xFFFFFFFF#32)) std) (fun t => (t.tdsr, t.tdcur)) =
    some (0xFFFFFFF8#32, 0xFFFFFFF8#32) := by decide

/-- R146, as M4 to M6. -/
theorem test_rdsr :
  view (exec (.rdsr (.write 0xFFFFFFFF#32)) { std with txActive := true }) (fun t => (t.rdsr, t.rdcur, t.tdsr)) =
    some (0xFFFFFFF8#32, 0xFFFFFFF8#32, 0#32) ∧
  view (exec (.rdsr (.write 0x20000200#32)) { std with rxActive := true }) (fun t => (t.rdsr, t.rdcur)) =
    some (0#32, 0#32) := by decide

/-- M2, M3. -/
theorem test_tdar :
  view (exec (.tdar (.write 1#32)) State.reset) statusWord = some 0#32 ∧
  view (exec (.tdar (.write 0#32)) { std with ctrlEn := true }) statusWord = some 1#32 := by decide

/-- X12. -/
theorem test_rdar :
  view (exec (.rdar (.write 1#32)) { std with ctrlEn := true, halted := true }) statusWord = some 0x10#32 ∧
  view (exec (.rdar (.write 0#32)) { std with ctrlEn := true }) statusWord = some 2#32 := by decide

/-- M7. -/
theorem test_rxmax :
  view (exec (.rxmax (.write 0x00012345#32)) { std with ppBusy := true }) State.rxmax = some 0x2345#16 := by decide

/-- M8, M18. -/
theorem test_station :
  view (exec (.machi (.write 0xABCD0200#32)) State.reset) State.machi = some 0x0200#16 ∧
  view (exec (.maclo (.write 5#32)) { State.reset with ppBusy := true }) State.maclo = some 0#32 ∧
  view (exec (.maclo (.write 5#32)) State.reset) State.maclo = some 5#32 := by decide

/-- D1v, D2v, D5v, D6v. -/
theorem test_mmfr :
  view (exec (.mmfr (.write 0x60060000#32)) std) (fun t => (t.mmfr, statusWord t)) = some (0x60060000#32, 4#32) ∧
  view (exec (.mmfr (.write 0x50029200#32)) { std with mmfr := 0x60060000#32, mdioBusy := true }) State.mmfr =
    some 0x60060000#32 ∧
  view (exec (.mmfr (.write 0x00061234#32)) std) (fun t => (t.mmfr, t.mdioBusy)) = some (0x00061234#32, false) ∧
  view (exec (.mmfr (.write 0x70060000#32)) std) (fun t => (t.mmfr, t.mdioBusy)) = some (0x70060000#32, false) := by
  decide

/-- M22, on the second and the last counter. -/
theorem test_counters :
  view (exec (.cntRxNodesc (.write 0#32)) { std with counters := { Counters.zero with rxNodesc := 2#32 } })
    (fun t => t.counters.rxNodesc) = some 2#32 ∧
  view (exec (.cntTxErr .read) { std with counters := { Counters.zero with txErr := 7#32 } }) State.hostData =
    some 7#32 ∧
  view (exec (.cntUdpNoport .read) { std with counters := { Counters.zero with udpNoport := 9#32 } }) State.hostData =
    some 9#32 := by decide

/-- M18: the word is stored, the processor busy; a second write is ignored. -/
theorem test_ppCmd :
  view (exec (.ppCmd (.write 0xF#32)) std) (fun t => (t.ppCmd, ppStatusWord t)) = some (0xF#32, 1#32) ∧
  view (exec (.ppCmd (.write 0xF#32)) { std with ppBusy := true }) State.ppCmd = some 0#32 := by decide

/-- R155: the result in bits 15:8. -/
theorem test_ppStatus :
  view (exec (.ppStatus .read) { std with ppResult := .rxUdp }) State.hostData = some 0x00002500#32 := by decide

/-- M18: `P0` is locked while a command is pending. -/
theorem test_p_registers :
  view (exec (.p0 (.write 0x22#32)) { std with ppBusy := true }) (fun t => t.p.p0) = some 0#32 ∧
  view (exec (.p7 (.write 0x22#32)) std) (fun t => (t.p.p0, t.p.p7)) = some (0#32, 0x22#32) := by decide

/-- M18, M11. -/
theorem test_layer3_registers :
  view (exec (.ip4Addr (.write 1#32)) { State.reset with ppBusy := true }) State.ip4Addr = some 0#32 ∧
  view (exec (.ip4Ttl (.write 0x1FF#32)) std) State.ip4Ttl = some 0xFF#8 := by decide

/-- M10, M23. -/
theorem test_arp_window :
  view (exec (.arpSel (.write 0x1F#32)) std) State.arpSel = some 0xF#4 ∧
  view (exec (.arpMaclo .read) { std with arp := cacheOf ⟨.resolved, 0xC0A80801#32, 0x020000000001#48, 130#32⟩ })
    State.hostData = some 0x00000001#32 ∧
  view (exec (.arpMachi .read) { std with arp := cacheOf ⟨.resolved, 0xC0A80801#32, 0x020000000001#48, 130#32⟩ })
    State.hostData = some 0x00020200#32 ∧
  view (exec (.arpTs .read) { std with arp := cacheOf ⟨.resolved, 0xC0A80801#32, 0x020000000001#48, 130#32⟩ })
    State.hostData = some 130#32 := by decide

/-- M21. -/
theorem test_udp_ports :
  view (exec (.udpPort0 (.write 0#32)) { std with udpPort := ports8887 }) (fun t => t.udpPort[0]) = some 0x22B7#16 ∧
  view (exec (.udpPort0 .read) { std with udpPort := ports8887 }) State.hostData = some 0x000022B7#32 ∧
  view (exec (.udpPort1 .read) { std with udpPort := ports8887 }) State.hostData = some 0#32 := by decide

/-- M20. -/
theorem test_reserved :
  view (exec (.reserved 0x038#12 .read) { std with hostData := 5#32 }) State.hostData = some 0#32 := by decide

/-! ## One step: the engines (95 parts 2.2 to 2.4, 2.11) -/

/-- X1: the word, the counter, the event, the pointer, the frame's length and first bytes. -/
theorem test_txd_sends :
  view (step (txState 0xA000002A#32 0x20001000#32))
    (fun t => (load32 t.mem 0x20000100#32, t.counters.txSent, t.eir, t.tdcur)) =
    some (0x3000002A#32, 1#32, 0x02#5, 0x20000108#32) ∧
  view (step (txState 0xA000002A#32 0x20001000#32)) (fun t => t.wireTx.map fun f => (f.length, f.take 4)) =
    some [(42, [0xAA#8, 0xBB#8, 0xCC#8, 0#8])] := by decide

/-- X8; X2's wrap. -/
theorem test_txd_rejects_and_wraps :
  view (step (txState 0x87FF0005#32 0x20001000#32))
    (fun t => (load32 t.mem 0x20000100#32, t.counters.txErr, t.wireTx, t.txActive)) =
    some (0x1FFF0005#32, 1#32, [], true) ∧
  view (step (txState 0xE000002A#32 0x20001000#32)) (fun t => (load32 t.mem 0x20000100#32, t.tdcur)) =
    some (0x7000002A#32, 0x20000100#32) := by decide

/-- X6. -/
theorem test_txdStop :
  view (step (txState 0x3000002A#32 0x20001000#32)) (fun t => (t.txActive, t.tdcur, load32 t.mem 0x20000100#32)) =
    some (false, 0x20000100#32, 0x3000002A#32) := by decide

/-- X11; X10. -/
theorem test_tx_bus_errors :
  view (step (txState 0x8000003C#32 0x2000FFF0#32))
    (fun t => (load32 t.mem 0x20000100#32, t.tdcur, statusWord t, t.eir)) =
    some (0x8000003C#32, 0x20000100#32, 0x10#32, 0x10#5) ∧
  view (step { std with ctrlEn := true, txActive := true, schedule := [.txdma] })
    (fun t => (statusWord t, t.eir, t.tdcur)) = some (0x10#32, 0x10#5, 0#32) := by decide

/-- P5 step 11, with a frame of 14 bytes: looped back, nothing on the wire. -/
theorem test_txd_loopback :
  view (step (loopState 0xE000000E#32))
    (fun t => (load32 t.mem 0x20000100#32, load32 t.mem 0x20000200#32, t.eir)) =
    some (0x7000000E#32, 0x7000000E#32, 0x06#5) ∧
  view (step (loopState 0xE000000E#32)) (fun t => (t.wireTx, load8 t.mem 0x20002001#32)) = some ([], 0xBB#8) := by
  decide

/-- Y8 with a frame of three bytes: reserved bits kept, `LEN` replaced, no event. -/
theorem test_rxd_stores :
  view (step (rxState 0x87FF1234#32 0x20002000#32 [1#8, 2#8, 3#8]))
    (fun t => (load32 t.mem 0x20000200#32, t.rdcur, t.eir, t.counters.rxStored, load8 t.mem 0x20002002#32)) =
    some (0x17FF0003#32, 0x20000208#32, 0#5, 1#32, 3#8) := by decide

/-- Y7; Y9. -/
theorem test_rxd_empty_frame_and_bus_error :
  view (step (rxState 0xC0000000#32 0x20002000#32 [])) (fun t => (load32 t.mem 0x20000200#32, t.rdcur, t.eir)) =
    some (0x50000000#32, 0x20000200#32, 0#5) ∧
  view (step (rxState 0x80000000#32 0xFFFFFFF0#32 [1#8])) (fun t => (statusWord t, t.eir, t.counters.rxStored)) =
    some (0x10#32, 0x10#5, 0#32) := by decide

/-- Y3; Y13's order (a frame of two bytes over `RXMAX = 1`). -/
theorem test_rxdStop :
  view (step (rxState 0x7000003C#32 0x20002000#32 [1#8]))
    (fun t => (t.rxActive, t.counters.rxNodesc, t.rdcur, load32 t.mem 0x20000200#32)) =
    some (false, 1#32, 0x20000200#32, 0x7000003C#32) ∧
  view (step { rxState 0x7000003C#32 0x20002000#32 [1#8, 2#8] with rxmax := 1#16 })
    (fun t => (t.rxActive, t.counters.rxNodesc, t.counters.rxOversize)) = some (true, 0#32, 1#32) := by decide

/-- D3v. -/
theorem test_mdioRead :
  view (step { std with mmfr := 0x60060000#32, mdioBusy := true, schedule := [.mdio 0x786D#16] })
    (fun t => (t.mmfr, statusWord t, t.eir, t.phyLog)) =
    some (0x6006786D#32, 0#32, 1#5, [.read 0#5 1#5 0x786D#16]) := by decide

/-- D4v. -/
theorem test_mdioWrite :
  view (step { std with mmfr := 0x50029200#32, mdioBusy := true, schedule := [.mdio 7#16] })
    (fun t => (t.mmfr, t.mdioBusy, t.eir, t.phyLog)) =
    some (0x50029200#32, false, 1#5, [.write 0#5 0#5 0x9200#16]) := by decide

/-- D5v: no event ever. -/
theorem test_mmfrNoOperation :
  view (step { std with mmfr := 0x00061234#32, schedule := [.mdio 7#16] })
    (fun t => (t.mmfr, t.mdioBusy, t.eir, t.phyLog)) = some (0x00061234#32, false, 0#5, []) := by decide

/-! ## One step: the packet processor (95 parts 2.5 to 2.10) -/

/-- I1, M19. -/
theorem test_nop :
  view (step { std with ppCmd := 0#32, ppBusy := true, schedule := [.pp] }) (fun t => (ppStatusWord t, t.eir)) =
    some (0#32, 8#5) := by decide

/-- I2, I6. -/
theorem test_ppIllegal :
  view (step { std with ppCmd := 0x0000000F#32, ppBusy := true, schedule := [.pp] })
    (fun t => (ppStatusWord t, t.eir)) = some (0x00000100#32, 8#5) ∧
  view (step { std with ppCmd := 0x00000100#32, ppBusy := true, schedule := [.pp] }) ppStatusWord =
    some 0x00000100#32 := by decide

/-- K8, an odd length; K13, the end-around carry. -/
theorem test_cksum :
  view (exec .cksum (cmd 0x20003000#32 3#32 0#32 0#32 0#32 (storeBytes [] 0x20003000#32 [0x12#8, 0x34#8, 0x56#8])))
    (fun t => (t.ppResult, t.p.p6, t.p.p7)) = some (.ok, 0x00006834#32, 0x000097CB#32) ∧
  view (exec .cksum (cmd 0x20003000#32 2#32 0xFFFF#32 0#32 0#32 (storeBytes [] 0x20003000#32 [0x12#8, 0x34#8])))
    (fun t => (t.p.p6, t.p.p7)) = some (0x00001234#32, 0x0000EDCB#32) := by decide

/-- The errors of 2.6, and the empty range at 0x1FFFFFFF. -/
theorem test_cksum_errors :
  view (exec .cksum (cmd 0x20003000#32 0x10000#32 0#32 0#32 0#32 [])) (fun t => (t.ppResult, t.p.p6)) =
    some (.errBadArg, 0x66#32) ∧
  view (exec .cksum (cmd 0x2000FFFF#32 2#32 0#32 0#32 0#32 [])) (fun t => (t.ppResult, t.p.p7)) =
    some (.errBus, 0x77#32) ∧
  view (exec .cksum (cmd 0x1FFFFFFF#32 0#32 0#32 0#32 0#32 [])) (fun t => (t.ppResult, t.p.p6, t.p.p7)) =
    some (.ok, 0#32, 0xFFFF#32) := by decide

/-- H1; H4's second address. -/
theorem test_ethHdr :
  view (exec .ethHdr (cmd 0x20001000#32 0x64#32 0x0200#32 0x0800#32 0#32 []))
    (fun t => (t.p.p7, loadBytes t.mem 0x20001000#32 14)) =
    some (14#32, [2#8, 0#8, 0#8, 0#8, 0#8, 0x64#8, 2#8, 0#8, 0#8, 0#8, 0#8, 2#8, 8#8, 0#8]) ∧
  view (exec .ethHdr (cmd 0x2000FFF3#32 0x64#32 0x0200#32 0x0800#32 0#32 [])) (fun t => (t.ppResult, t.mem)) =
    some (.errBus, []) := by decide

/-- H5: `FR_ARPREQ_OUT`. -/
theorem test_arpReq :
  view (exec .arpReq (cmd 0x20001000#32 0xC0A80864#32 0#32 0#32 0#32 []))
    (fun t => (t.p.p7, loadBytes t.mem 0x20001000#32 42)) =
    some (42#32,
      [0xFF#8, 0xFF#8, 0xFF#8, 0xFF#8, 0xFF#8, 0xFF#8, 2#8, 0#8, 0#8, 0#8, 0#8, 2#8, 8#8, 6#8, 0#8, 1#8, 8#8, 0#8,
        6#8, 4#8, 0#8, 1#8, 2#8, 0#8, 0#8, 0#8, 0#8, 2#8, 0xC0#8, 0xA8#8, 8#8, 2#8, 0#8, 0#8, 0#8, 0#8, 0#8, 0#8,
        0xC0#8, 0xA8#8, 8#8, 0x64#8]) := by decide

/-- H6: `FR_ARPREPLY_OUT`; H7. -/
theorem test_arpReply :
  view (exec .arpReply (cmd 0x20001000#32 0xC0A80864#32 0x64#32 0x0200#32 0#32 []))
    (fun t => (t.p.p7, loadBytes t.mem 0x20001000#32 42)) =
    some (42#32,
      [2#8, 0#8, 0#8, 0#8, 0#8, 0x64#8, 2#8, 0#8, 0#8, 0#8, 0#8, 2#8, 8#8, 6#8, 0#8, 1#8, 8#8, 0#8,
        6#8, 4#8, 0#8, 2#8, 2#8, 0#8, 0#8, 0#8, 0#8, 2#8, 0xC0#8, 0xA8#8, 8#8, 2#8, 2#8, 0#8, 0#8, 0#8, 0#8, 0x64#8,
        0xC0#8, 0xA8#8, 8#8, 0x64#8]) ∧
  view (exec .arpReply (cmd 0x20001000#32 0#32 0#32 0x00010000#32 0#32 [])) State.ppResult = some .errBadArg := by
  decide

/-- H8; H10's outputs and checksum. -/
theorem test_ip4Hdr :
  view (exec .ip4Hdr (cmd 0x20001000#32 0xC0A80864#32 17#32 14#32 0#32 []))
    (fun t => (t.p.p6, t.p.p7, loadBytes t.mem 0x2000100E#32 20)) =
    some (34#32, 48#32,
      [0x45#8, 0#8, 0#8, 0x22#8, 0#8, 0#8, 0#8, 0#8, 0x40#8, 0x11#8, 0xE9#8, 0x14#8, 0xC0#8, 0xA8#8, 8#8, 2#8,
        0xC0#8, 0xA8#8, 8#8, 0x64#8]) ∧
  view (exec .ip4Hdr (cmd 0x20001000#32 0xC0A80864#32 1#32 1480#32 0#32 []))
    (fun t => (t.p.p6, t.p.p7, loadBytes t.mem 0x20001018#32 2)) = some (1500#32, 1514#32, [0xE3#8, 0x6A#8]) := by
  decide

/-- H14; H16, an odd length. -/
theorem test_icmpEchoReq :
  view (exec .icmpEchoReq (cmd 0x20001000#32 0xBEEF#32 7#32 4#32 0#32
      (storeBytes [] 0x2000102A#32 [0x70#8, 0x69#8, 0x6E#8, 0x67#8])))
    (fun t => (t.p.p7, loadBytes t.mem 0x20001022#32 8)) =
    some (12#32, [8#8, 0#8, 0x5A#8, 0x38#8, 0xBE#8, 0xEF#8, 0#8, 7#8]) ∧
  view (exec .icmpEchoReq (cmd 0x20001000#32 1#32 2#32 3#32 0#32
      (storeBytes [] 0x2000102A#32 [0x61#8, 0x62#8, 0x63#8])))
    (fun t => (t.p.p7, loadBytes t.mem 0x20001022#32 8)) =
    some (11#32, [8#8, 0#8, 0x33#8, 0x9A#8, 0#8, 1#8, 0#8, 2#8]) := by decide

/-- H18: `FR_PONG_OUT`; H20. -/
theorem test_icmpEchoReply :
  view (exec .icmpEchoReply (cmd 0x20002000#32 60#32 0#32 0#32 0#32 pingFrame))
    (fun t => (t.p.p7, loadBytes t.mem 0x20002000#32 44)) =
    some (50#32,
      [2#8, 0#8, 0#8, 0#8, 0#8, 0x64#8, 2#8, 0#8, 0#8, 0#8, 0#8, 2#8, 8#8, 0#8, 0x45#8, 0#8, 0#8, 0x24#8, 0#8, 0#8,
        0#8, 0#8, 0x40#8, 1#8, 0xE9#8, 0x22#8, 0xC0#8, 0xA8#8, 8#8, 2#8, 0xC0#8, 0xA8#8, 8#8, 0x64#8, 0#8, 0#8, 0x5C#8,
        0x35#8, 0x12#8, 0x34#8, 0#8, 1#8, 0x61#8, 0x62#8]) ∧
  view (exec .icmpEchoReply (cmd 0x20002000#32 41#32 0#32 0#32 0#32 pingFrame)) State.ppResult =
    some .errBadArg := by decide

/-- H23, H26. -/
theorem test_udpHdr_checksummed :
  view (exec (.udpHdr true)
      { cmd 0x20001000#32 0#32 50000#32 6#32 0xC0A80864#32
          (storeBytes [] 0x2000102A#32 [0x68#8, 0x65#8, 0x6C#8, 0x6C#8, 0x6F#8, 0x41#8]) with udpPort := ports8887 })
    (fun t => (t.p.p7, loadBytes t.mem 0x20001022#32 8)) =
    some (14#32, [0x22#8, 0xB7#8, 0xC3#8, 0x50#8, 0#8, 0x0E#8, 0x44#8, 0#8]) ∧
  view (exec (.udpHdr true)
      { cmd 0x20001000#32 0#32 50000#32 2#32 0xC0A80864#32 (storeBytes [] 0x2000102A#32 [0x88#8, 0x1B#8]) with
        udpPort := ports8887 })
    (fun t => loadBytes t.mem 0x20001022#32 8) =
    some [0x22#8, 0xB7#8, 0xC3#8, 0x50#8, 0#8, 0x0A#8, 0xFF#8, 0xFF#8] := by decide

/-- H21, H27. -/
theorem test_udpHdr_errors :
  view (exec (.udpHdr false) (cmd 0x20001000#32 0#32 50000#32 6#32 0#32 [])) ppStatusWord = some 0x00000500#32 ∧
  view (exec (.udpHdr false) { cmd 0x2000FFD6#32 0#32 50000#32 6#32 0#32 [] with udpPort := ports8887 })
    State.ppResult = some .ok ∧
  view (exec (.udpHdr true) { cmd 0x2000FFD6#32 0#32 50000#32 6#32 0#32 [] with udpPort := ports8887 })
    State.ppResult = some .errBus := by decide

/-- V1; V5 (a short ARP frame). -/
theorem test_rxClassify_udp :
  view (exec .rxClassify { cmd 0x20002000#32 60#32 9#32 0#32 0#32 udpFrame with udpPort := ports8887 })
    (fun t => (ppStatusWord t, t.p.p1, t.p.p2, t.p.p3, t.p.p4, t.p.p5, t.p.p6, t.p.p7)) =
    some (0x00002500#32, 0xC0A80864#32, 0xC350#32, 0#32, 0x2000202A#32, 5#32, 0xC0A80802#32, 0x22B7#32) ∧
  view (exec .rxClassify (cmd 0x20002000#32 41#32 9#32 0#32 0#32 arpFrame))
    (fun t => (ppStatusWord t, t.counters.l2ArpDrop, t.p.p1)) = some (0x00003200#32, 1#32, 41#32) := by decide

/-- A5; V32. -/
theorem test_rxClassify_arp_and_ping :
  view (exec .rxClassify (cmd 0x20002000#32 42#32 5#32 0#32 0#32 arpFrame))
    (fun t => (ppStatusWord t, t.p.p2, t.p.p5, t.arp[0])) =
    some (0x00002000#32, 0x64#32, 2#32, ⟨.resolved, 0xC0A80864#32, 0x020000000064#48, 5#32⟩) ∧
  view (exec .rxClassify (cmd 0x20002000#32 60#32 9#32 0#32 0#32 pingFrame))
    (fun t => (ppStatusWord t, t.p.p1, t.p.p2, t.p.p3, t.p.p4, t.p.p5)) =
    some (0x00002300#32, 0xC0A80864#32, 0x1234#32, 1#32, 16#32, 0xC0A80802#32) := by decide

/-- N2v, N4v. -/
theorem test_ip4Nexthop :
  view (exec .ip4Nexthop (cmd 0x08080808#32 0#32 0#32 0#32 0#32 [])) (fun t => (t.ppResult, t.p.p6, t.p.p7)) =
    some (.ok, 1#32, 0xC0A80801#32) ∧
  view (exec .ip4Nexthop { cmd 0x08080808#32 0#32 0#32 0#32 0#32 [] with ip4Gw := 0#32 })
    (fun t => (ppStatusWord t, t.p.p6, t.p.p7)) = some (0x00000600#32, 0x66#32, 0x77#32) := by decide

set_option maxRecDepth 8000 in
/-- T8: the zeroed entries do not match address 0; T5's second command. -/
theorem test_arpResolve :
  view (exec .arpResolve (cmd 0#32 0#32 0#32 0#32 0#32 []))
    (fun t => (t.ppResult, t.p.p5, t.p.p6, t.arp[0])) = some (.arpNew, 2#32, 0#32, ⟨.pending, 0#32, 0#48, 0#32⟩) ∧
  view (exec .arpResolve
      { cmd 0x0A000011#32 201#32 0#32 0#32 0#32 [] with
        arp := fullCache.set 0 ⟨.resolved, 0x0A000001#32, 0x020000000001#48, 200#32⟩ })
    (fun t => (t.ppResult, t.p.p5, t.p.p6, t.p.p7, t.arp[1])) =
    some (.arpNew, 6#32, 1#32, 0x0A000002#32, ⟨.pending, 0x0A000011#32, 0#48, 201#32⟩) := by decide

/-- T3; T7. -/
theorem test_arpUpdate :
  view (exec .arpUpdate
      { cmd 0xC0A80801#32 1#32 0x0200#32 120#32 0#32 [] with arp := cacheOf ⟨.pending, 0xC0A80801#32, 0#48, 100#32⟩ })
    (fun t => (t.p.p5, t.p.p6, t.p.p7, t.arp[0])) =
    some (1#32, 0#32, 0#32, ⟨.resolved, 0xC0A80801#32, 0x020000000001#48, 120#32⟩) ∧
  view (exec .arpUpdate (cmd 0xC0A80801#32 1#32 0x00010200#32 120#32 0#32 [])) (fun t => (t.ppResult, t.p.p5)) =
    some (.errBadArg, 0x55#32) := by decide

/-- B2; B8. -/
theorem test_udpBind :
  view (exec .udpBind { cmd 1#32 8887#32 0#32 0#32 0#32 [] with udpPort := ports8887 })
    (fun t => (ppStatusWord t, t.udpPort[0], t.udpPort[1])) = some (0x00000400#32, 8887#16, 0#16) ∧
  view (exec .udpBind { cmd 7#32 0xFFFF#32 0#32 0#32 0#32 [] with udpPort := ports8887 })
    (fun t => (t.ppResult, t.udpPort[0], t.udpPort[7])) = some (.ok, 8887#16, 0xFFFF#16) := by decide

/-- B9; B10. -/
theorem test_udpUnbind :
  view (exec .udpUnbind { cmd 0#32 0#32 0#32 0#32 0#32 [] with udpPort := ports8887 })
    (fun t => (t.ppResult, t.udpPort[0])) = some (.ok, 0#16) ∧
  view (exec .udpUnbind (cmd 8#32 0#32 0#32 0#32 0#32 [])) State.ppResult = some .errBadArg := by decide

/-! ## Turns of the host, and its calls -/

/-- R83, R85, R80: a register access, a narrow memory access, and the accesses that have no meaning. -/
theorem test_host_accesses :
  view (step { std with schedule := [.hostRead 0x4000014C#32 .w32] }) State.hostData = some 0x40#32 ∧
  view (step { std with mem := [(0x100, 0x34#8), (0x101, 0x12#8)], schedule := [.hostRead 0x100#32 .w16] })
    State.hostData = some 0x1234#32 ∧
  refusalOf (step { std with schedule := [.hostRead 0x4000014C#32 .w8] }) = some .registerAccess ∧
  faultOf (step { std with schedule := [.hostRead 0xFFFFFFFE#32 .w32] }) = some .addressSpace := by decide

/-- R323's management words, R157's mask, R333's reset. -/
theorem test_host_calls :
  mdioReadStart 0x40000000#32 0#5 1#5 =
    [.hostWrite 0x40000004#32 .w32 1#32, .hostWrite 0x40000034#32 .w32 0x60060000#32,
      .hostRead 0x40000004#32 .w32] ∧
  netmaskOf 24 = 0xFFFFFF00#32 ∧ netmaskOf 0 = 0#32 ∧ netmaskOf 32 = 0xFFFFFFFF#32 ∧
  linkUp 0x786D#16 2 = true ∧ linkUp 0x7849#16 2 = false ∧
  resetCall 0x40000000#32 = [.hostWrite 0x40000000#32 .w32 0x80000000#32] := by decide

/-- R351, R155: every result code is read back from the status word that carries it. -/
theorem test_hostPpOutcome (r : PpResult) : hostPpOutcome (0#16 ++ r.code ++ 0#8) = some r := by cases r <;> decide

/-- R121: a poll without the event is followed by another; R323's example; R328, R330, R331 and R332 by their results. -/
theorem test_driver_waits_and_branches :
  mdioReadWait 0x40000000#32 0x1E#32 = [.hostRead 0x40000004#32 .w32] ∧
  mdioReadWait 0x40000000#32 0x01#32 = [.hostWrite 0x40000004#32 .w32 1#32, .hostRead 0x40000034#32 .w32] ∧
  hostPpWait 0x40000000#32 0x17#32 = [.hostRead 0x40000004#32 .w32] ∧
  resolveNext 0x40000000#32 0x20001000#32 7#32 .arpHit = some [.hostRead 0x4000010C#32 .w32, .hostRead 0x40000110#32 .w32] ∧
  resolveNext 0x40000000#32 0x20001000#32 7#32 .arpPending = some (resolveRequest 0x40000000#32 0x20001000#32 7#32) ∧
  pingSend 0xC0A80864#32 [0x70#8, 0x69#8, 0x6E#8, 0x67#8] = ⟨0xC0A80864#32, 1#32, 12#32⟩ ∧
  udpSendIp 0xC0A80864#32 [1#8, 2#8, 3#8, 4#8, 5#8, 6#8] = ⟨0xC0A80864#32, 17#32, 14#32⟩ ∧
  dispatchWakes .rxArpOther 0#32 = false ∧ dispatchWakes .rxArpOther 1#32 = true ∧
  (dispatchTransmit 0x40000000#32 ⟨0#32, 0x20000100#32, 1, 2, 0, 0, 0, 0, 0, 0, 0⟩ 0#32 0x20001000#32 0#32 .rxArpRequest)[1]? =
    some (.hostWrite 0x20000100#32 .w32 0xA000002A#32) := by decide

/-- R320's example of ring words; R325 and R326 with an error bit and without a replacement; R332's counter; R333's
loopback. -/
theorem test_driver_calls :
  rxInitDescs 0x20000200#32 [0x20002000#32, 0x20002800#32] =
    [hostMw32 0x20000204#32 0x20002000#32, hostMw32 0x20000200#32 0xA0000000#32,
      hostMw32 0x2000020C#32 0x20002800#32, hostMw32 0x20000208#32 0xE0000000#32] ∧
  (rxServiceVars ⟨0#32, 0#32, 2, 2, 1, 0, 0, 1, 0, 0, 0⟩ none).rxDrop = 1 ∧
  (dispatchVars ⟨0#32, 0#32, 2, 2, 0, 0, 1, 1, 0, 0, 0⟩ .errBus).dispatchErr = 1 ∧
  (txServiceVars ⟨0#32, 0#32, 2, 2, 0, 0, 1, 1, 0, 0, 0⟩ 0x18000005#32).txErr = 1 ∧
  setLoopbackRest 0x40000000#32 0x1#32 true = [.hostWrite 0x40000000#32 .w32 0x3#32] ∧
  rxIdle 0x2#32 = false ∧ txIdle 0x2#32 = true ∧ mdioIdle 0x4#32 = false := by decide

/-- R185's reference PHY: WIRE changes the status register, a write of the block another one. -/
theorem test_referencePhy :
  referencePhy [.wire 0#5 0x786D#16, .block (.write 0#5 0#5 0x9200#16), .block (.read 0#5 1#5 7#16)] 0#5 1#5 = 0x786D#16 ∧
  referencePhy [.wire 0#5 0x786D#16, .block (.write 0#5 0#5 0x9200#16)] 0#5 0#5 = 0x9200#16 ∧
  referencePhy [] 31#5 31#5 = 0#16 := by decide

/-! ## Witnesses: the hypotheses of each statement can be met, clause by clause at the boundary values -/

/-- The premises every statement about a command shares. -/
abbrev ready (s : State) : Prop := memoryWf s.mem = true ∧ s.ppBusy = true

theorem witness_DecodeAndEncodeAgree :
    (Instr.udpHdr true).wellFormed = true ∧ (Instr.reserved 0x1A0#12 .read).wellFormed = true ∧
      (Instr.txd (ctl 0xFFFF#16) 0xFFFFFFFF#32).wellFormed = true ∧
      (Instr.ppIllegal 0xFFFFFFFF#32).wellFormed = true := by decide

theorem witness_IllegalCommandsCompleteWithBadCmd :
    std.ppBusy = false ∧ (cmd 0#32 0#32 0#32 0#32 0#32 []).ppBusy = true ∧
      decodePp 0x0000000F#32 = .ppIllegal 0x0000000F#32 := by decide

theorem witness_RegisterWindowDecodes :
    (0x000#12).toNat % 4 = 0 ∧ (0xFFC#12).toNat % 4 = 0 ∧ (0x001#12).toNat % 4 ≠ 0 ∧ (0xFFF#12).toNat % 4 ≠ 0 ∧
      reservedOffset 0x034#12 = false ∧ reservedOffset 0x038#12 = true ∧ reservedOffset 0x19C#12 = false ∧
      reservedOffset 0x1A0#12 = true := by decide

/-- The Tx clause: a ready descriptor and one that is not. -/
theorem witness_StepRunsTheDecodedOperation_tx :
    (txState 0xA000002A#32 0x20001000#32).txActive = true ∧
      admitted (txState 0xA000002A#32 0x20001000#32).platform 0x20000100#32 8 = true ∧
      decode .txDesc (loadBytes (txState 0xA000002A#32 0x20001000#32).mem 0x20000100#32 8) =
        .ok (.txd ⟨false, true, false, false, 0#11, 42#16⟩ 0x20001000#32) ∧
      contractBreach (txState 0xA000002A#32 0x20001000#32) = none ∧
      ownBit (load32 (txState 0x3000002A#32 0x20001000#32).mem 0x20000100#32) = false := by decide

/-- The Rx clause. -/
theorem witness_StepRunsTheDecodedOperation_rx :
    rxIgnores (rxState 0xA0000000#32 0x20002000#32 [1#8]) = false ∧
      rxScreen [1#8] (rxState 0xA0000000#32 0x20002000#32 [1#8]) = none ∧
      admitted (rxState 0xA0000000#32 0x20002000#32 [1#8]).platform 0x20000200#32 8 = true ∧
      decode .rxDesc (loadBytes (rxState 0xA0000000#32 0x20002000#32 [1#8]).mem 0x20000200#32 8) =
        .ok (.rxd ⟨false, true, false, false, 0#11, 0#16⟩ 0x20002000#32) ∧
      contractBreach (rxState 0xA0000000#32 0x20002000#32 [1#8]) = none := by decide

/-- The clauses of the other agents. -/
theorem witness_StepRunsTheDecodedOperation_others :
    decode .mmfr (leBytes4 0x60060000#32) = .ok (.mdioRead 0#5 1#5 2#2 0#16) ∧
      decode .ppCmd (leBytes4 0x00000009#32) = .ok .rxClassify ∧
      footprintApart { cmd 0x20002000#32 60#32 0#32 0#32 0#32 [] with ppCmd := 9#32 } = true ∧
      std.platform.base.toNat % 0x1000 = 0 ∧
      decode .mmio (encodeMmio 0x14C#12 .read) = .ok (.ip4Ttl .read) ∧
      decode .mmio (encodeMmio 0x010#12 (.write 9#32)) = .ok (.tdsr (.write 9#32)) := by decide

theorem witness_StepTakesOneTurn :
    State.reset.schedule = [] ∧ view (step (txState 0xA000002A#32 0x20001000#32)) State.schedule = some [] := by decide

/-- A state with an active ring, a pending frame, a learnt entry and a bound port meets the invariant, and steps. -/
def invState : State :=
  { txState 0xA000002A#32 0x20001000#32 with
    mmfr := 0x60060000#32
    mdioBusy := true
    ppBusy := true
    p := ⟨0xC0A80864#32, 7#32, 0#32, 0#32, 0#32, 0#32, 0#32, 0#32⟩
    arp := cacheOf ⟨.resolved, 0xC0A80864#32, 0x020000000064#48, 5#32⟩
    udpPort := ports8887 }

theorem witness_EveryStepKeepsTheInvariant :
    invState.Inv ∧ view (step invState) (fun t => t.tdcur) = some 0x20000108#32 := by
  refine ⟨⟨?_, ?_, ?_, ?_, ?_, ?_, ?_, ?_, ?_, ?_, ?_, ?_⟩, ?_⟩ <;> decide

theorem witness_BothResetsGiveTheResetValues :
    (0x80000000#32).getLsbD 31 = true ∧
      mdioWritePending { std with mmfr := 0x50029200#32, mdioBusy := true } = true ∧
      (0x50029200#32).extractLsb' 28 4 = 0b0101#4 := by decide

/-- One turn left after reset. -/
theorem witness_NothingMovesAfterReset (t : Turn) : { State.reset with schedule := [t] }.registersAtReset := by
  refine ⟨⟨rfl, rfl⟩, ⟨rfl, rfl⟩, ⟨rfl, rfl, rfl, rfl, rfl⟩, ⟨rfl, rfl, rfl, rfl⟩, rfl, ⟨rfl, rfl⟩, rfl, ?_,
    ⟨rfl, rfl⟩, rfl, ⟨rfl, rfl, rfl, rfl⟩, rfl, ?_, ?_⟩
  · intro n; cases n <;> rfl
  · show ∀ i : Fin 16, State.reset.arp[i] = ⟨.empty, 0#32, 0#48, 0#32⟩
    decide
  · show ∀ k : Fin 8, State.reset.udpPort[k] = 0#16
    decide

theorem witness_ControlRegister :
    (0x80000000#32).getLsbD 31 = true ∧
      ((0x7FFFFFFF#32).getLsbD 31 = false ∧ (0x7FFFFFFF#32).getLsbD 0 = true) ∧
      ((0x7FFFFFFE#32).getLsbD 31 = false ∧ (0x7FFFFFFE#32).getLsbD 0 = false) := by decide

theorem witness_RingRegisters :
    std.txActive = false ∧ (txState 0#32 0#32).txActive = true ∧ std.rxActive = false ∧
      (rxState 0#32 0#32 []).rxActive = true := by decide

theorem witness_ActivationRegisters :
    ((txState 0#32 0#32).ctrlEn = true ∧ (txState 0#32 0#32).halted = false) ∧ std.ctrlEn = false ∧
      { std with halted := true }.halted = true := by decide

/-- `PP_BUSY` both ways: the station, command, operand and ARP window statements. -/
theorem witness_lockedRegisters :
    std.ppBusy = false ∧ (cmd 0#32 0#32 0#32 0#32 0#32 []).ppBusy = true := by decide

theorem witness_ManagementFrameRegister :
    std.mdioBusy = false ∧ { std with mdioBusy := true }.mdioBusy = true ∧
      (0x60060000#32).extractLsb' 28 4 = 0b0110#4 ∧ (0x50029200#32).extractLsb' 28 4 = 0b0101#4 ∧
      ((0x70060000#32).extractLsb' 28 4 ≠ 0b0110#4 ∧ (0x70060000#32).extractLsb' 28 4 ≠ 0b0101#4) := by decide

theorem witness_TableWindowRegisters :
    ArpEntry.zero = std.arp[std.arpSel.toNat]'(std.arpSel.isLt) := by decide

theorem witness_RegisterReadsHaveNoSideEffect :
    (0x000#12).toNat % 4 = 0 ∧ (0x1A0#12).toNat % 4 = 0 ∧ (0xFFC#12).toNat % 4 = 0 := by decide

/-- A read-only register, a ring base under an active ring, a locked register, the last reserved offset. -/
theorem witness_UnacceptedWritesAreIgnored :
    writeAccepted 0x00C std = false ∧ writeAccepted 0x010 (txState 0#32 0#32) = false ∧
      writeAccepted 0x150 (cmd 0#32 0#32 0#32 0#32 0#32 []) = false ∧ writeAccepted 0xFFC std = false ∧
      (0x00C#12).toNat % 4 = 0 ∧ (0xFFC#12).toNat % 4 = 0 := by decide

theorem witness_RegisterAccessFrame :
    formatOf (.ctrl (.write 0x7FFFFFFF#32)) = .mmio ∧ softReset (.ctrl (.write 0x7FFFFFFF#32)) = false ∧
      formatOf (.reserved 0xFFC#12 .read) = .mmio ∧ softReset (.reserved 0xFFC#12 .read) = false := by decide

/-- First and last word of the window; a word that touches it with its last byte; a byte; a list of bytes. -/
theorem witness_WindowAdmitsOnlyAlignedWords :
    std.platform.base.toNat % 0x1000 = 0 ∧
      (inWindow std.platform 0x40000000 = true ∧ 0x40000000 % 4 = 0) ∧
      (inWindow std.platform 0x40000FFC = true ∧ 0x40000FFC % 4 = 0) ∧
      ((3 < Width.w32.bytes ∧ inWindow std.platform (0x3FFFFFFD + 3) = true) ∧ 0x3FFFFFFD % 4 ≠ 0) ∧
      ((0 < Width.w8.bytes ∧ inWindow std.platform (0x40000FFF + 0) = true) ∧ Width.w8 ≠ .w32) ∧
      (1 < [1#8, 2#8].length ∧ inWindow std.platform (0x3FFFFFFF + 1) = true) := by decide

/-- `LEN` 14, and a buffer that ends with `DmaWindow`. -/
theorem witness_TxdSendsTheFrame_shortest :
    memoryWf (txState 0x8000000E#32 0x2000FFF2#32).mem = true ∧
      (txState 0x8000000E#32 0x2000FFF2#32).txActive = true ∧ (txState 0x8000000E#32 0x2000FFF2#32).ctrlLoop = false ∧
      14 ≤ (ctl 14#16).len.toNat ∧ (ctl 14#16).len.toNat ≤ 1514 ∧
      admitted (txState 0x8000000E#32 0x2000FFF2#32).platform 0x2000FFF2#32 (ctl 14#16).len.toNat = true := by decide

set_option maxRecDepth 60000 in
/-- `LEN` 1514. -/
theorem witness_TxdSendsTheFrame_longest :
    (ctl 1514#16).len.toNat ≤ 1514 ∧ admitted std.platform 0x20001000#32 (ctl 1514#16).len.toNat = true := by decide

theorem witness_TxdRejectsBadLengths :
    memoryWf (txState 0x8000000D#32 0#32).mem = true ∧ (txState 0x8000000D#32 0#32).txActive = true ∧
      (ctl 13#16).len.toNat < 14 ∧ 1514 < (ctl 1515#16).len.toNat ∧ 1514 < (ctl 0xFFFF#16).len.toNat ∧
      (ctl 0#16).len.toNat < 14 := by decide

/-- A receiving state with a frame as long as `RXMAX`. -/
def fullFrame (w0 buf : Word) : State := { rxState w0 buf [1#8, 2#8, 3#8] with rxmax := 3#16 }

theorem witness_NotReadyDescriptorsStopTheRing :
    (fullFrame 0x30000003#32 0#32).ctrlEn = true ∧ (fullFrame 0x30000003#32 0#32).halted = false ∧
      (fullFrame 0x30000003#32 0#32).ctrlLoop = false ∧ (fullFrame 0x30000003#32 0#32).rxActive = true ∧
      (fullFrame 0x30000003#32 0#32).wireIn.length ≤ (fullFrame 0x30000003#32 0#32).rxmax.toNat := by decide

/-- The four clauses: Tx buffer over the end of `DmaWindow`, Rx buffer before its start, and fetches at 0 and 0x2000FFFC. -/
theorem witness_BusErrorsHaltTheEngines :
    (∃ (s : State) (c : DescCtl) (buf : Word), s.txActive = true ∧ 14 ≤ c.len.toNat ∧ c.len.toNat ≤ 1514 ∧
      admitted s.platform buf c.len.toNat = false) ∧
    (∃ (s : State) (buf : Word), s.ctrlEn = true ∧ s.halted = false ∧ s.ctrlLoop = false ∧ s.rxActive = true ∧
      s.wireIn.length = s.rxmax.toNat ∧ admitted s.platform buf s.wireIn.length = false) ∧
    (∃ (s : State) (rest : List Turn), s.schedule = .txdma :: rest ∧ s.txActive = true ∧
      ownBit (load32 s.mem s.tdcur) = true ∧ admitted s.platform s.tdcur 4 = true ∧
      admitted s.platform (s.tdcur + 4#32) 4 = false) ∧
    (∃ (s : State) (f : List Byte) (rest : List Turn), s.schedule = .wire f :: rest ∧ s.ctrlEn = true ∧
      s.halted = false ∧ s.ctrlLoop = false ∧ s.rxActive = true ∧ f.length ≤ s.rxmax.toNat ∧
      admitted s.platform s.rdcur 4 = false) :=
  ⟨⟨txState 0x8000000E#32 0x2000FFF3#32, ctl 14#16, 0x2000FFF3#32, by decide⟩,
    ⟨fullFrame 0x80000000#32 0x1FFFFFFF#32, 0x1FFFFFFF#32, by decide⟩,
    ⟨{ txState 0#32 0#32 with tdcur := 0x2000FFFC#32, mem := store32 [] 0x2000FFFC#32 0x80000000#32 }, [], by decide⟩,
    ⟨{ rxState 0#32 0#32 [1#8] with rdcur := 0#32 }, [1#8], [], by decide⟩⟩

/-- Loopback, a ready Rx descriptor (fourth clause), and `LEN = RXMAX`. -/
theorem witness_LoopbackReceivesWhatItSends :
    memoryWf (loopState 0xE000000E#32).mem = true ∧ (loopState 0xE000000E#32).txActive = true ∧
      (loopState 0xE000000E#32).ctrlLoop = true ∧
      admitted std.platform 0x20001000#32 (ctl 14#16).len.toNat = true ∧
      (loopState 0xE000000E#32).rxActive = true ∧
      (ctl 14#16).len.toNat ≤ { loopState 0xE000000E#32 with rxmax := 14#16 }.rxmax.toNat ∧
      admitted std.platform 0x20000200#32 8 = true ∧
      ownBit (load32 (loopState 0xE000000E#32).mem 0x20000200#32) = true ∧
      load32 (loopState 0xE000000E#32).mem 0x20000204#32 = 0x20002000#32 ∧
      admitted std.platform 0x20002000#32 (ctl 14#16).len.toNat = true := by decide

/-- The three ranges of that clause are apart. -/
theorem witness_LoopbackReceivesWhatItSends_apart :
    (∀ i, i < 4 → ∀ j, j < 4 → 0x20000100#32 + BitVec.ofNat 32 i ≠ 0x20000200#32 + BitVec.ofNat 32 j) ∧
      (∀ i, i < 4 → ∀ j, j < 14 → 0x20000100#32 + BitVec.ofNat 32 i ≠ 0x20002000#32 + BitVec.ofNat 32 j) ∧
      (∀ i, i < 4 → ∀ j, j < 14 → 0x20000200#32 + BitVec.ofNat 32 i ≠ 0x20002000#32 + BitVec.ofNat 32 j) := by decide

/-- The other loopback clauses: ring inactive, `RXMAX` one short, descriptor not ready, buffer not admitted. -/
theorem witness_LoopbackReceivesWhatItSends_drops :
    (∃ s : State, memoryWf s.mem = true ∧ s.txActive = true ∧ s.ctrlLoop = true ∧ s.rxActive = false) ∧
    (∃ (s : State) (c : DescCtl), memoryWf s.mem = true ∧ s.txActive = true ∧ s.ctrlLoop = true ∧ s.rxActive = true ∧
      c.len.toNat = 14 ∧ s.rxmax.toNat < c.len.toNat) ∧
    (∃ (s : State) (c : DescCtl), memoryWf s.mem = true ∧ s.txActive = true ∧ s.ctrlLoop = true ∧ s.rxActive = true ∧
      c.len.toNat = 14 ∧ c.len.toNat ≤ s.rxmax.toNat ∧ admitted s.platform s.rdcur 4 = true ∧
      ownBit (load32 s.mem s.rdcur) = false) ∧
    (∃ (s : State) (c : DescCtl), memoryWf s.mem = true ∧ s.txActive = true ∧ s.ctrlLoop = true ∧ s.rxActive = true ∧
      c.len.toNat = 14 ∧ c.len.toNat ≤ s.rxmax.toNat ∧ ownBit (load32 s.mem s.rdcur) = true ∧
      admitted s.platform (load32 s.mem (s.rdcur + 4#32)) c.len.toNat = false) :=
  ⟨⟨{ loopState 0xE000000E#32 with rxActive := false }, by decide⟩,
    ⟨{ loopState 0xE000000E#32 with rxmax := 13#16 }, ctl 14#16, by decide⟩,
    ⟨{ loopState 0xE000000E#32 with mem := store32 [] 0x20000200#32 0x70000000#32 }, ctl 14#16, by decide⟩,
    ⟨{ loopState 0xE000000E#32 with
        mem := store32 (store32 [] 0x20000200#32 0xE0000000#32) 0x20000204#32 0x2000FFF3#32 }, ctl 14#16, by decide⟩⟩

/-- Disabled, halted, loopback; ring inactive; one byte over `RXMAX`. -/
theorem witness_OfferedFramesAreScreened :
    std.ctrlEn = false ∧ { std with halted := true }.halted = true ∧ (loopState 0#32).ctrlLoop = true ∧
      (txState 0#32 0#32).rxActive = false ∧ (txState 0#32 0#32).ctrlEn = true ∧
      { fullFrame 0#32 0#32 with rxmax := 2#16 }.rxmax.toNat < (fullFrame 0#32 0#32).wireIn.length := by decide

/-- A frame as long as `RXMAX`; and the empty frame, whose range is admitted anywhere. -/
theorem witness_RxdStoresTheFrame :
    memoryWf (fullFrame 0xA0000000#32 0x2000FFFD#32).mem = true ∧ (fullFrame 0xA0000000#32 0x2000FFFD#32).rxActive = true ∧
      (fullFrame 0xA0000000#32 0x2000FFFD#32).wireIn.length ≤ (fullFrame 0xA0000000#32 0x2000FFFD#32).rxmax.toNat ∧
      admitted std.platform 0x2000FFFD#32 (fullFrame 0xA0000000#32 0x2000FFFD#32).wireIn.length = true ∧
      admitted std.platform 0#32 (rxState 0xA0000000#32 0#32 []).wireIn.length = true ∧
      (∀ i, i < 4 → ∀ j, j < 3 → 0x20000200#32 + BitVec.ofNat 32 i ≠ 0x2000FFFD#32 + BitVec.ofNat 32 j) := by decide

theorem witness_ManagementFramesComplete :
    { std with mdioBusy := true }.mdioBusy = true ∧ std.mdioBusy = false := by decide

theorem witness_EveryCommandCompletes :
    formatOf .rxClassify = .ppCmd ∧ formatOf (.ppIllegal 0xF#32) = .ppCmd ∧
      (cmd 0#32 0#32 0#32 0#32 0#32 []).ppBusy = true := by decide

/-- The smallest and the largest error code. -/
theorem witness_CommandErrorsHaveNoOtherEffect :
    view (exec (.ppIllegal 0xF#32) (cmd 0#32 0#32 0#32 0#32 0#32 [])) (fun t => t.ppResult.code) = some 1#8 ∧
      view (exec .ip4Nexthop { cmd 0x08080808#32 0#32 0#32 0#32 0#32 [] with ip4Gw := 0#32 })
        (fun t => t.ppResult.code) = some 6#8 := by decide

theorem witness_ChecksumsChain :
    ([] : List Byte).length % 2 = 0 ∧ [0x12#8, 0x34#8].length % 2 = 0 := by decide

theorem witness_ChecksummedHeadersVerify : [0x45#8, 0#8].length % 2 = 0 := by decide

/-- `CKSUM`: `P1` and `P2` at 0xFFFF and one more; a range that is admitted and one that is not. -/
theorem witness_NopAndCksumCommands :
    0xFFFF < (cmd 0#32 0x10000#32 0#32 0#32 0#32 []).p.p1.toNat ∧
      0x10000 ≤ (cmd 0#32 0#32 0x10000#32 0#32 0#32 []).p.p2.toNat ∧
      ((cmd 0#32 0xFFFF#32 0xFFFF#32 0#32 0#32 []).p.p1.toNat ≤ 0xFFFF ∧
        (cmd 0#32 0xFFFF#32 0xFFFF#32 0#32 0#32 []).p.p2.toNat < 0x10000 ∧
        admitted std.platform 0#32 0xFFFF = false) ∧
      admitted std.platform 0x2000FFFD#32 3 = true ∧ admitted std.platform 0#32 0 = true := by decide

/-- The builders' premises on memory and `PP_BUSY`, and `ETH_HDR` and `ARP_REPLY`: 0xFFFF and 0x10000. -/
theorem witness_EthernetHeaderIsBuilt :
    memoryWf (cmd 0x2000FFF2#32 0#32 0xFFFF#32 0xFFFF#32 0#32 udpFrame).mem = true ∧
      (cmd 0x2000FFF2#32 0#32 0xFFFF#32 0xFFFF#32 0#32 udpFrame).ppBusy = true ∧
      (0xFFFF#32).toNat < 0x10000 ∧ 0x10000 ≤ (0x10000#32).toNat ∧
      admitted std.platform 0x2000FFF2#32 14 = true ∧ admitted std.platform 0x2000FFF3#32 14 = false := by decide

theorem witness_ArpFramesAreBuilt :
    memoryWf (cmd 0x2000FFD6#32 0#32 0#32 0xFFFF#32 0#32 arpFrame).mem = true ∧
      (cmd 0x2000FFD6#32 0#32 0#32 0xFFFF#32 0#32 arpFrame).ppBusy = true ∧
      (0xFFFF#32).toNat < 0x10000 ∧ 0x10000 ≤ (0x10000#32).toNat ∧
      admitted std.platform 0x2000FFD6#32 42 = true ∧ admitted std.platform 0x2000FFD7#32 42 = false := by decide

/-- The premises at `P2 = 0xFF`, `P3 = 1480` with a footprint that ends with `DmaWindow`, one byte later, and beyond each. -/
theorem witness_Ip4HeaderIsBuilt :
    (∃ s : State, ready s ∧ s.p.p2.toNat = 0xFF ∧ s.p.p3.toNat = 1480 ∧
      admitted s.platform (s.p.p0 + 14#32) 20 = true) ∧
    (∃ s : State, ready s ∧ s.p.p2.toNat < 0x100 ∧ s.p.p3.toNat ≤ 1480 ∧
      admitted s.platform (s.p.p0 + 14#32) 20 = false) ∧
    (∃ s : State, ready s ∧ s.p.p2.toNat = 0x100) ∧ (∃ s : State, ready s ∧ s.p.p3.toNat = 1481) :=
  ⟨⟨cmd 0x2000FFDE#32 0#32 0xFF#32 1480#32 0#32 [], by decide⟩, ⟨cmd 0x2000FFDF#32 0#32 0xFF#32 1480#32 0#32 [], by decide⟩,
    ⟨cmd 0#32 0#32 0x100#32 0#32 0#32 [], by decide⟩, ⟨cmd 0#32 0#32 0#32 1481#32 0#32 [], by decide⟩⟩

set_option maxRecDepth 60000 in
theorem witness_EchoRequestIsBuilt :
    (∃ s : State, ready s ∧ s.p.p1.toNat = 0xFFFF ∧ s.p.p2.toNat = 0xFFFF ∧ s.p.p3.toNat = 1472 ∧
      admitted s.platform (s.p.p0 + 34#32) (8 + s.p.p3.toNat) = true) ∧
    (∃ s : State, ready s ∧ s.p.p1.toNat < 0x10000 ∧ s.p.p2.toNat < 0x10000 ∧ s.p.p3.toNat = 1 ∧
      admitted s.platform (s.p.p0 + 34#32) (8 + s.p.p3.toNat) = false) ∧
    (∃ s : State, ready s ∧ s.p.p1.toNat = 0x10000) ∧ (∃ s : State, ready s ∧ s.p.p2.toNat = 0x10000) ∧
    (∃ s : State, ready s ∧ s.p.p3.toNat = 1473) :=
  ⟨⟨cmd 0x20001000#32 0xFFFF#32 0xFFFF#32 1472#32 0#32 [], by decide⟩,
    ⟨cmd 0x2000FFD6#32 0#32 0#32 1#32 0#32 [], by decide⟩, ⟨cmd 0#32 0x10000#32 0#32 0#32 0#32 [], by decide⟩,
    ⟨cmd 0#32 0#32 0x10000#32 0#32 0#32 [], by decide⟩, ⟨cmd 0#32 0#32 0#32 1473#32 0#32 [], by decide⟩⟩

/-- A request in a frame just long enough (`totlen = len - 14`); one byte shorter; lengths 42 and 1514 and beyond. -/
theorem witness_EchoReplyIsBuiltInPlace :
    (∃ s : State, ready s ∧ s.p.p1.toNat = 50 ∧ admitted s.platform s.p.p0 50 = true ∧ isEchoRequest s = true ∧
      frameTotlen s = s.p.p1.toNat - 14) ∧
    (∃ s : State, ready s ∧ s.p.p1.toNat = 49 ∧ admitted s.platform s.p.p0 49 = true ∧ isEchoRequest s = false) ∧
    (∃ s : State, ready s ∧ s.p.p1.toNat = 42 ∧ admitted s.platform s.p.p0 42 = false) ∧
    (∃ s : State, ready s ∧ s.p.p1.toNat = 1514 ∧ admitted s.platform s.p.p0 1514 = false) ∧
    (∃ s : State, ready s ∧ s.p.p1.toNat = 41) ∧ (∃ s : State, ready s ∧ s.p.p1.toNat = 1515) :=
  ⟨⟨cmd 0x20002000#32 50#32 0#32 0#32 0#32 pingFrame, by decide⟩, ⟨cmd 0x20002000#32 49#32 0#32 0#32 0#32 pingFrame, by decide⟩,
    ⟨cmd 0#32 42#32 0#32 0#32 0#32 [], by decide⟩, ⟨cmd 0#32 1514#32 0#32 0#32 0#32 [], by decide⟩,
    ⟨cmd 0#32 41#32 0#32 0#32 0#32 [], by decide⟩, ⟨cmd 0#32 1515#32 0#32 0#32 0#32 [], by decide⟩⟩

/-- Slots 0 (bound), 7 (unbound) and 8; `P2` and `P3` at their limits; the footprint with and without the payload. -/
theorem witness_UdpHeaderIsBuilt :
    (∃ (s : State) (k : Fin 8), ready s ∧ k.val = s.p.p1.toNat ∧ s.p.p2.toNat = 0xFFFF ∧ s.p.p3.toNat = 1472 ∧
      s.udpPort[k] ≠ 0#16 ∧ admitted s.platform (s.p.p0 + 34#32) 8 = true ∧
      admitted s.platform (s.p.p0 + 34#32) (8 + s.p.p3.toNat) = false) ∧
    (∃ (s : State) (k : Fin 8), ready s ∧ k.val = s.p.p1.toNat ∧ s.p.p3.toNat = 3 ∧ s.udpPort[k] ≠ 0#16 ∧
      admitted s.platform (s.p.p0 + 34#32) (8 + s.p.p3.toNat) = true) ∧
    (∃ (s : State) (k : Fin 8), ready s ∧ k.val = 7 ∧ k.val = s.p.p1.toNat ∧ s.udpPort[k] = 0#16) ∧
    (∃ s : State, ready s ∧ s.p.p1.toNat = 8) ∧ (∃ s : State, ready s ∧ s.p.p2.toNat = 0x10000) ∧
    (∃ s : State, ready s ∧ s.p.p3.toNat = 1473) :=
  ⟨⟨{ cmd 0x2000FFD6#32 0#32 0xFFFF#32 1472#32 0#32 [] with udpPort := ports8887 }, 0, by decide⟩,
    ⟨{ cmd 0x2000FFD3#32 0#32 0#32 3#32 0#32 [] with udpPort := ports8887 }, 0, by decide⟩,
    ⟨cmd 0#32 7#32 0#32 0#32 0#32 [], 7, by decide⟩, ⟨cmd 0#32 8#32 0#32 0#32 0#32 [], by decide⟩,
    ⟨cmd 0#32 0#32 0x10000#32 0#32 0#32 [], by decide⟩, ⟨cmd 0#32 0#32 0#32 1473#32 0#32 [], by decide⟩⟩

/-- Lengths 13, 41, 33 and 14, 0xFFFF and 0x10000; the three kinds of EtherType. -/
theorem witness_ClassifyLayer2Drops :
    (∃ s : State, s.ppBusy = true ∧ s.p.p1.toNat = 0x10000) ∧
    (∃ s : State, s.ppBusy = true ∧ s.p.p1.toNat = 0xFFFF ∧ admitted s.platform s.p.p0 0xFFFF = false) ∧
    (∃ s : State, s.ppBusy = true ∧ s.p.p1.toNat = 13 ∧ admitted s.platform s.p.p0 13 = true) ∧
    (∃ s : State, s.ppBusy = true ∧ s.p.p1.toNat = 41 ∧ admitted s.platform s.p.p0 41 = true ∧
      loadBe16 s.mem (s.p.p0 + 12#32) = 0x0806#16) ∧
    (∃ s : State, s.ppBusy = true ∧ s.p.p1.toNat = 33 ∧ admitted s.platform s.p.p0 33 = true ∧
      loadBe16 s.mem (s.p.p0 + 12#32) = 0x0800#16) ∧
    (∃ s : State, s.ppBusy = true ∧ s.p.p1.toNat = 14 ∧ admitted s.platform s.p.p0 14 = true ∧
      loadBe16 s.mem (s.p.p0 + 12#32) ≠ 0x0806#16 ∧ loadBe16 s.mem (s.p.p0 + 12#32) ≠ 0x0800#16) :=
  ⟨⟨cmd 0#32 0x10000#32 0#32 0#32 0#32 [], by decide⟩, ⟨cmd 0#32 0xFFFF#32 0#32 0#32 0#32 [], by decide⟩,
    ⟨cmd 0x20002000#32 13#32 0#32 0#32 0#32 [], by decide⟩, ⟨cmd 0x20002000#32 41#32 0#32 0#32 0#32 arpFrame, by decide⟩,
    ⟨cmd 0x20002000#32 33#32 0#32 0#32 0#32 udpFrame, by decide⟩, ⟨cmd 0x20002000#32 14#32 0#32 0#32 0#32 [], by decide⟩⟩

/-- The 42-byte request of 95 row A5; with one byte changed, row V8. -/
theorem witness_ClassifyArp :
    (∃ s : State, s.ppBusy = true ∧ s.p.p1.toNat = 42 ∧ admitted s.platform s.p.p0 s.p.p1.toNat = true ∧
      loadBe16 s.mem (s.p.p0 + 12#32) = 0x0806#16 ∧ arpFieldsOk s = true) ∧
    (∃ s : State, s.ppBusy = true ∧ s.p.p1.toNat = 42 ∧ admitted s.platform s.p.p0 s.p.p1.toNat = true ∧
      loadBe16 s.mem (s.p.p0 + 12#32) = 0x0806#16 ∧ arpFieldsOk s = false) :=
  ⟨⟨cmd 0x20002000#32 42#32 0#32 0#32 0#32 arpFrame, by decide⟩,
    ⟨cmd 0x20002000#32 42#32 0#32 0#32 0#32 (storeByte arpFrame 0x20002012 8#8), by decide⟩⟩

/-- The frame's premises of the two IPv4 statements: length, admission, EtherType. -/
abbrev ip4Frame (s : State) : Prop :=
  s.ppBusy = true ∧ 34 ≤ s.p.p1.toNat ∧ s.p.p1.toNat ≤ 0xFFFF ∧ admitted s.platform s.p.p0 s.p.p1.toNat = true ∧
    loadBe16 s.mem (s.p.p0 + 12#32) = 0x0800#16

/-- ... and the first two tests passed. -/
abbrev ip4Verified (s : State) : Prop :=
  ip4Frame s ∧ load8 s.mem (s.p.p0 + 14#32) = 0x45#8 ∧ cksumOf (loadBytes s.mem (s.p.p0 + 14#32) 20) 0#16 = 0#16

/-- ... and the total length and fragment tests. -/
abbrev ip4Whole (s : State) : Prop :=
  ip4Verified s ∧ 20 ≤ (loadBe16 s.mem (s.p.p0 + 16#32)).toNat ∧
    (loadBe16 s.mem (s.p.p0 + 16#32)).toNat ≤ s.p.p1.toNat - 14 ∧
    (loadBe16 s.mem (s.p.p0 + 20#32)).toNat % 0x4000 = 0

/-- 95 rows V10, V9, V30, V17 (another local address), V20 (protocol 6, checksum refreshed). -/
theorem witness_ClassifyIp4Drops :
    (∃ s : State, ip4Frame s ∧ load8 s.mem (s.p.p0 + 14#32) ≠ 0x45#8) ∧
    (∃ s : State, ip4Frame s ∧ load8 s.mem (s.p.p0 + 14#32) = 0x45#8 ∧
      cksumOf (loadBytes s.mem (s.p.p0 + 14#32) 20) 0#16 ≠ 0#16) ∧
    (∃ s : State, ip4Verified s ∧ s.p.p1.toNat - 14 < (loadBe16 s.mem (s.p.p0 + 16#32)).toNat) ∧
    (∃ s : State, ip4Whole s ∧ loadBe32 s.mem (s.p.p0 + 30#32) ≠ s.ip4Addr ∧
      loadBe32 s.mem (s.p.p0 + 30#32) ≠ ((s.ip4Addr &&& s.ip4Mask) ||| ~~~s.ip4Mask)) ∧
    (∃ s : State, ip4Whole s ∧ loadBe32 s.mem (s.p.p0 + 30#32) = s.ip4Addr ∧
      load8 s.mem (s.p.p0 + 23#32) ≠ 1#8 ∧ load8 s.mem (s.p.p0 + 23#32) ≠ 17#8) :=
  ⟨⟨cmd 0x20002000#32 47#32 0#32 0#32 0#32 (storeByte udpFrame 0x2000200E 0x46#8), by decide⟩,
    ⟨cmd 0x20002000#32 47#32 0#32 0#32 0#32 (storeByte udpFrame 0x20002018 0xE8#8), by decide⟩,
    ⟨cmd 0x20002000#32 46#32 0#32 0#32 0#32 udpFrame, by decide⟩,
    ⟨{ cmd 0x20002000#32 47#32 0#32 0#32 0#32 udpFrame with ip4Addr := 0xC0A80803#32 }, by decide⟩,
    ⟨cmd 0x20002000#32 47#32 0#32 0#32 0#32 (storeByte (storeByte udpFrame 0x20002017 6#8) 0x20002019 0x20#8), by decide⟩⟩

/-- `FR_PING_IN`, and rows V34 (seven bytes of ICMP), V1 with `ulen = l4len`, V25 (UDP length 14), V22 (no such slot). -/
theorem witness_ClassifyIcmpAndUdp :
    (∃ s : State, ip4Whole s ∧ loadBe32 s.mem (s.p.p0 + 30#32) = s.ip4Addr ∧ load8 s.mem (s.p.p0 + 23#32) = 1#8 ∧
      8 ≤ (loadBe16 s.mem (s.p.p0 + 16#32)).toNat - 20 ∧ load8 s.mem (s.p.p0 + 35#32) = 0#8 ∧
      load8 s.mem (s.p.p0 + 34#32) = 8#8) ∧
    (∃ s : State, ip4Whole s ∧ loadBe32 s.mem (s.p.p0 + 30#32) = s.ip4Addr ∧ load8 s.mem (s.p.p0 + 23#32) = 1#8 ∧
      (loadBe16 s.mem (s.p.p0 + 16#32)).toNat - 20 = 7) ∧
    (∃ (s : State) (k : Fin 8), ip4Whole s ∧ loadBe32 s.mem (s.p.p0 + 30#32) = s.ip4Addr ∧
      load8 s.mem (s.p.p0 + 23#32) = 17#8 ∧
      (loadBe16 s.mem (s.p.p0 + 38#32)).toNat = (loadBe16 s.mem (s.p.p0 + 16#32)).toNat - 20 ∧
      loadBe16 s.mem (s.p.p0 + 36#32) ≠ 0#16 ∧ s.udpPort[k] = loadBe16 s.mem (s.p.p0 + 36#32) ∧
      (∀ j : Fin 8, s.udpPort[j] = loadBe16 s.mem (s.p.p0 + 36#32) → j = k)) ∧
    (∃ s : State, ip4Whole s ∧ loadBe32 s.mem (s.p.p0 + 30#32) = s.ip4Addr ∧ load8 s.mem (s.p.p0 + 23#32) = 17#8 ∧
      (loadBe16 s.mem (s.p.p0 + 38#32)).toNat = (loadBe16 s.mem (s.p.p0 + 16#32)).toNat - 20 + 1) ∧
    (∃ s : State, ip4Whole s ∧ loadBe32 s.mem (s.p.p0 + 30#32) = s.ip4Addr ∧ load8 s.mem (s.p.p0 + 23#32) = 17#8 ∧
      8 ≤ (loadBe16 s.mem (s.p.p0 + 38#32)).toNat ∧ ∀ k : Fin 8, s.udpPort[k] ≠ loadBe16 s.mem (s.p.p0 + 36#32)) :=
  ⟨⟨cmd 0x20002000#32 50#32 0#32 0#32 0#32 pingFrame, by decide⟩,
    ⟨cmd 0x20002000#32 50#32 0#32 0#32 0#32 (storeByte (storeByte pingFrame 0x20002011 27#8) 0x20002019 0x2B#8), by decide⟩,
    ⟨{ cmd 0x20002000#32 47#32 0#32 0#32 0#32 udpFrame with udpPort := ports8887 }, 0, by decide⟩,
    ⟨cmd 0x20002000#32 47#32 0#32 0#32 0#32 (storeByte udpFrame 0x20002027 14#8), by decide⟩,
    ⟨cmd 0x20002000#32 47#32 0#32 0#32 0#32 udpFrame, by decide⟩⟩

theorem witness_ClassifyFrame :
    view (exec .rxClassify { cmd 0x20002000#32 60#32 9#32 0#32 0#32 udpFrame with udpPort := ports8887 })
      (fun t => t.ppResult.code) = some 0x25#8 ∧
    view (exec .rxClassify (cmd 0x20002000#32 0x10000#32 9#32 0#32 0#32 udpFrame)) (fun t => t.ppResult.code) =
      some 0x02#8 ∧
    view (exec .rxClassify (cmd 0x20002000#32 13#32 9#32 0#32 0#32 udpFrame)) (fun t => t.ppResult.code) =
      some 0x30#8 := by decide

theorem witness_NextHopIsChosen :
    (∃ s : State, s.ppBusy = true ∧ s.p.p0 &&& s.ip4Mask = s.ip4Addr &&& s.ip4Mask) ∧
    (∃ s : State, s.ppBusy = true ∧ s.p.p0 &&& s.ip4Mask ≠ s.ip4Addr &&& s.ip4Mask ∧ s.ip4Gw ≠ 0#32) ∧
    (∃ s : State, s.ppBusy = true ∧ s.p.p0 &&& s.ip4Mask ≠ s.ip4Addr &&& s.ip4Mask ∧ s.ip4Gw = 0#32) :=
  ⟨⟨cmd 0xC0A808FF#32 0#32 0#32 0#32 0#32 [], by decide⟩, ⟨cmd 0xC0A80900#32 0#32 0#32 0#32 0#32 [], by decide⟩,
    ⟨{ cmd 0x08080808#32 0#32 0#32 0#32 0#32 [] with ip4Gw := 0#32 }, by decide⟩⟩

/-- `witness_EveryStepKeepsTheInvariant` gives a state with the invariant and `PP_BUSY`; its entry 0 is resolved and
holds `P0`, and its entry 1 is the first `EMPTY` one. -/
theorem witness_ArpResolveLooksUp :
    invState.ppBusy = true ∧ (invState.arp[(0 : Fin 16)].state = .resolved ∧ invState.arp[(0 : Fin 16)].ip = invState.p.p0) ∧
      (invState.arp[(1 : Fin 16)].state = .empty ∧ ∀ j : Fin 16, j.val < (1 : Fin 16).val → invState.arp[j].state ≠ .empty) ∧
      (∀ j : Fin 16, invState.arp[j].state ≠ .empty → invState.arp[j].ip ≠ 0xC0A80865#32) ∧
      (cacheOf ⟨.pending, 0#32, 0#48, 0#32⟩)[(0 : Fin 16)].state = .pending := by decide

set_option maxRecDepth 8000 in
theorem witness_ArpResolveEvictsTheOldest :
    ∃ s : State, s.ppBusy = true ∧ (∀ j : Fin 16, s.arp[j].state ≠ .empty ∧ s.arp[j].ip ≠ s.p.p0) ∧
      (∀ j : Fin 16, s.arp[(0 : Fin 16)].ts.toNat ≤ s.arp[j].ts.toNat) :=
  ⟨{ cmd 0x0A000011#32 201#32 0#32 0#32 0#32 [] with arp := fullCache }, by decide⟩

/-- A full cache with the invariant, an address it does not hold, and `PP_BUSY`. -/
def fullState : State :=
  { cmd 0x0A000011#32 0x64#32 0xFFFF#32 201#32 0#32 [] with arp := fullCache }

set_option maxRecDepth 16000 in
/-- The eviction clause: the invariant, `P2` at 0xFFFF, and entry 0 the oldest of a full cache without the address. -/
theorem witness_ArpUpdateLearns_evicts :
    fullState.Inv ∧ fullState.ppBusy = true ∧ fullState.p.p2.toNat = 0xFFFF ∧
      (∀ j : Fin 16, fullState.arp[j].state ≠ .empty ∧ fullState.arp[j].ip ≠ fullState.p.p0) ∧
      (∀ j : Fin 16, fullState.arp[(0 : Fin 16)].ts.toNat ≤ fullState.arp[j].ts.toNat) ∧
      view (exec .arpUpdate fullState) (fun t => (t.ppResult, t.p.p7)) = some (.ok, 0x0A000001#32) := by
  refine ⟨⟨?_, ?_, ?_, ?_, ?_, ?_, ?_, ?_, ?_, ?_, ?_, ?_⟩, ?_⟩ <;> decide

/-- The other clauses: an existing entry, an `EMPTY` one (entry 1 is the first), and `P2` at 0x10000; the invariant of
these states is that of `witness_EveryStepKeepsTheInvariant`.  The last line is 95 row A3: learning without insertion. -/
theorem witness_ArpUpdateLearns :
    invState.ppBusy = true ∧ invState.p.p2.toNat < 0x10000 ∧
      (invState.arp[(0 : Fin 16)].state ≠ .empty ∧ invState.arp[(0 : Fin 16)].ip = invState.p.p0) ∧
      (invState.arp[(1 : Fin 16)].state = .empty ∧
        ∀ j : Fin 16, j.val < (1 : Fin 16).val → invState.arp[j].state ≠ .empty) ∧
      (∀ j : Fin 16, invState.arp[j].state ≠ .empty → invState.arp[j].ip ≠ 0xC0A80865#32) ∧
      (0x10000#32).toNat = 0x10000 ∧
      (arpLearn invState.arp 0xC0A80864#32 0x020000000065#48 9#32 false).cache[0] =
        ⟨.resolved, 0xC0A80864#32, 0x020000000065#48, 9#32⟩ := by decide

/-- Slots 7 and 8; ports 0, 0xFFFF and 0x10000; a port taken by another slot and one that is free. -/
theorem witness_PortsAreBoundAndUnbound :
    (∃ s : State, s.ppBusy = true ∧ s.p.p0.toNat = 8) ∧ (∃ s : State, s.ppBusy = true ∧ s.p.p1 = 0#32) ∧
    (∃ s : State, s.ppBusy = true ∧ s.p.p1.toNat = 0x10000) ∧
    (∃ (s : State) (k : Fin 8), s.ppBusy = true ∧ k.val = s.p.p0.toNat ∧ s.p.p1 ≠ 0#32 ∧ s.p.p1.toNat ≤ 0xFFFF ∧
      ∃ j : Fin 8, j ≠ k ∧ s.udpPort[j] = s.p.p1.extractLsb' 0 16) ∧
    (∃ (s : State) (k : Fin 8), s.ppBusy = true ∧ k.val = s.p.p0.toNat ∧ k.val = 7 ∧ s.p.p1.toNat = 0xFFFF ∧
      ∀ j : Fin 8, j ≠ k → s.udpPort[j] ≠ s.p.p1.extractLsb' 0 16) :=
  ⟨⟨cmd 8#32 1#32 0#32 0#32 0#32 [], by decide⟩, ⟨cmd 0#32 0#32 0#32 0#32 0#32 [], by decide⟩,
    ⟨cmd 0#32 0x10000#32 0#32 0#32 0#32 [], by decide⟩,
    ⟨{ cmd 1#32 8887#32 0#32 0#32 0#32 [] with udpPort := ports8887 }, 1, by decide⟩,
    ⟨{ cmd 7#32 0xFFFF#32 0#32 0#32 0#32 [] with udpPort := ports8887 }, 7, by decide⟩⟩

/-- The premises of the four statements about every operation. -/
theorem witness_rulesAboutTheMachine :
    softReset .arpResolve = false ∧ softReset (.ctrl (.write 0x7FFFFFFF#32)) = false ∧
      eirWrite (.eir .read) = false ∧
      view (exec (.eir .read) { std with halted := true }) (fun t => t.halted) = some true ∧
      view (exec .arpResolve invState) (fun t => t.ppResult) = some .arpHit ∧
      resetTurn std.platform .txdma = false ∧ eirTurn std.platform (.hostWrite 0x40000008#32 .w32 1#32) = false ∧
      resetTurn std.platform (.hostWrite 0x40000000#32 .w32 0x7FFFFFFF#32) = false ∧
      hostAccess (.hostWrite 0x40000008#32 .w32 1#32) = some (true, 0x40000008#32, 4) ∧
      view (step { rxState 0#32 0#32 [] with rxActive := false }) (fun t => t.counters.rxNodesc) = some 1#32 ∧
      view (step { std with halted := true, schedule := [.txdma] }) (fun t => t.halted) = some true := by decide

theorem witness_BlockWritesStayInDmaWindow :
    view (step (txState 0xA000002A#32 0x20001000#32)) (fun t => loadByte t.mem 0x20000103) = some 0x30#8 ∧
      loadByte (txState 0xA000002A#32 0x20001000#32).mem 0x20000103 = 0xA0#8 := by decide

/-- Accesses that keep the contract, at the first byte past an owned buffer and at the last byte of memory; one that runs
past it. -/
theorem witness_BrokenContractsStopTheRun_goesThrough :
    memoryWf (txState 0x8000000E#32 0x20001000#32).mem = true ∧
      hostStoreBreach ⟨0x2000100E#32, 4⟩ (txState 0x8000000E#32 0x20001000#32) = none ∧
      hostReadBreach ⟨0x20000104#32, 4⟩ (txState 0x8000000E#32 0x20001000#32) = none ∧
      touchesWindow std.platform 0xFFFFFFFF#32 1 = false ∧ 0xFFFFFFFF + 1 ≤ 2 ^ 32 ∧
      touchesWindow std.platform 0xFFFFFFFD#32 4 = false ∧ 2 ^ 32 < 0xFFFFFFFD + 4 ∧
      touchesWindow std.platform 0x2000100E#32 4 = false := by decide

/-- The Tx ring: the last byte of the second descriptor, past a gap, and the last byte of its buffer; a buffer of the
longest length, which the engine will not read; the ready descriptor at `TDCUR` one slot past the array. -/
theorem witness_BrokenContractsStopTheRun_tx :
    (∃ (s : State) (d : Word), ownedTx s d ∧ readySlotTx s d ∧ d = s.tdcur + 8#32 ∧ ownBit (load32 s.mem s.tdcur) = false ∧
      bytesMeet 0x2000010F#32 1 d 8 ∧ (descCtlOf (load32 s.mem d)).len.toNat = 1514 ∧
      bytesMeet 0x200015E9#32 2 (load32 s.mem (d + 4#32)) 1514) ∧
    (∃ (s : State) (d : Word), ownedTx s d ∧ (descCtlOf (load32 s.mem d)).len.toNat = 0xFFFF ∧
      bytesMeet 0x20010FFE#32 2 (load32 s.mem (d + 4#32)) 0xFFFF) ∧
    ∃ (s : State) (d : Word), ownedTx s d ∧ d = s.tdsr + 16#32 ∧ s.platform.txCapacity = 2 ∧ bytesMeet 0x20000117#32 1 d 8 :=
  ⟨⟨{ txState 0#32 0#32 with
      mem := store32 (store32 [] 0x20000108#32 0x800005EA#32) 0x2000010C#32 0x20001000#32 }, 0x20000108#32,
    ⟨by decide, .inl ⟨⟨1, by decide⟩, by decide⟩⟩, ⟨⟨1, by decide⟩, by decide⟩, by decide, by decide,
    ⟨0x2000010F, by decide⟩, by decide, ⟨0x200015E9, by decide⟩⟩,
    ⟨txState 0x8000FFFF#32 0x20001000#32, 0x20000100#32, ⟨by decide, .inr ⟨by decide, by decide⟩⟩, by decide,
      ⟨0x20010FFE, by decide⟩⟩,
    ⟨{ txState 0#32 0#32 with
        tdcur := 0x20000110#32
        mem := store32 [] 0x20000110#32 0x8000000E#32 }, 0x20000110#32,
      ⟨by decide, .inr ⟨by decide, by decide⟩⟩, by decide, by decide, ⟨0x20000117, by decide⟩⟩⟩

/-- The Rx ring: the last byte of `max_frame_size` bytes. -/
theorem witness_BrokenContractsStopTheRun_rx :
    ∃ (s : State) (d : Word), ownedRx s d ∧ bytesMeet 0x200025E9#32 1 (load32 s.mem (d + 4#32)) s.platform.maxFrameSize :=
  ⟨rxState 0xA0000000#32 0x20002000#32 [], 0x20000200#32, ⟨by decide, .inl ⟨⟨0, by decide⟩, by decide⟩⟩,
    ⟨0x200025E9, by decide⟩⟩

/-- The last byte of a pending footprint, and of the longest: `CKSUM` of 0xFFFF bytes. -/
theorem witness_BrokenContractsStopTheRun_footprint :
    (∃ s : State, ⟨0x20001000#32, 42⟩ ∈ ppFootprint s ∧ bytesMeet 0x20001029#32 1 0x20001000#32 42 ∧
      meetsAny ⟨0x20001029#32, 1⟩ (ownedDescs s ++ ownedBuffers s) = false) ∧
    (∃ s : State, ⟨0x20001000#32, 0xFFFF⟩ ∈ ppFootprint s) :=
  ⟨⟨{ cmd 0x20001000#32 0#32 0#32 0#32 0#32 [] with ppCmd := 3#32 }, by decide, ⟨0x20001029, by decide⟩, by decide⟩,
    ⟨{ cmd 0x20001000#32 0xFFFF#32 0#32 0#32 0#32 [] with ppCmd := 1#32 }, by decide⟩⟩

/-- Each way the contract is broken at an engine's turn: a noted breach of either ring, two things that overlap, a
footprint in an owned buffer. -/
theorem witness_BrokenContractsStopTheRun_engines :
    contractBroken { txState 0x8000000E#32 0x20001000#32 with
        handed := [⟨0x20000100#32, true, some .handover, none, none, some .handover⟩] } ∧
      contractBroken
        { rxState 0xA0000000#32 0x20002000#32 [] with
          handed := [⟨0x20000200#32, false, none, some .ownership, none, none⟩] } ∧
      contractBroken (txState 0x8000000E#32 0x20000104#32) ∧
      contractBroken { txState 0x8000000E#32 0x20001000#32 with
        ppBusy := true
        ppCmd := 5#32
        p := ⟨0x20000FFF#32, 0#32, 0#32, 0#32, 0#32, 0#32, 0#32, 0#32⟩ } :=
  ⟨.inl ⟨by decide, 0x20000100#32, _, ⟨⟨0, by decide⟩, by decide⟩, List.mem_singleton.2 rfl, by decide, by decide⟩,
    .inr (.inl ⟨by decide, 0x20000200#32, _, ⟨⟨0, by decide⟩, by decide⟩, List.mem_singleton.2 rfl, by decide, by decide⟩),
    .inr (.inr (.inl ⟨0, 2, ⟨0x20000100#32, 8⟩, ⟨0x20000104#32, 14⟩, by decide, by decide, by decide,
      ⟨0x20000104, by decide⟩⟩)),
    .inr (.inr (.inr ⟨⟨0x2000100D#32, 20⟩, ⟨0x20001000#32, 14⟩, by decide, by decide, ⟨0x2000100D, by decide⟩⟩))⟩

/-- Each ring about to be activated with a breach noted, the MAC enabled and not halted; the clauses of an active ring are
met in `test_active_ring_is_not_activated`. -/
theorem witness_BrokenContractsStopTheRun_activation :
    (∃ s : State, s.txActive = false ∧ s.ctrlEn = true ∧ s.halted = false ∧ s.platform.base.toNat % 0x1000 = 0 ∧
      memoryWf s.mem = true ∧ notedOn s (readyDescTx s) Handover.tx) ∧
    (∃ s : State, s.rxActive = false ∧ s.ctrlEn = true ∧ s.halted = false ∧ memoryWf s.mem = true ∧
      notedOn s (readyDescRx s) Handover.rx) :=
  ⟨⟨{ txState 0x8000000E#32 0x20001000#32 with
      txActive := false
      handed := [⟨0x20000100#32, true, some .handover, none, none, some .handover⟩] },
    by decide, by decide, by decide, by decide, by decide,
    ⟨0x20000100#32, _, (.inl ⟨⟨0, by decide⟩, by decide⟩), List.mem_singleton.2 rfl, by decide, by decide⟩⟩,
    ⟨{ rxState 0xA0000000#32 0x20002000#32 [] with
      rxActive := false
      handed := [⟨0x20000200#32, true, none, some .ownership, none, none⟩] },
    by decide, by decide, by decide, by decide,
    ⟨0x20000200#32, _, (.inl ⟨⟨0, by decide⟩, by decide⟩), List.mem_singleton.2 rfl, by decide, by decide⟩⟩⟩

/-- A ring about to be moved from under the pending footprint: its last byte is the first of the ring. -/
theorem witness_BrokenContractsStopTheRun_moved :
    ∃ (s : State) (a b : Span), a ∈ ppFootprint s ∧ b ∈ heldSpans s ∧ bytesMeet a.start a.len b.start b.len ∧
      s.platform.base.toNat % 0x1000 = 0 ∧ faultOf (step { s with schedule := [.hostWrite 0x40000010#32 .w32 8#32] }) =
        some .sharedMemory :=
  ⟨{ cmd 0x200000F3#32 0#32 0#32 0#32 0#32 [] with ppCmd := 2#32, tdsr := 0x20000100#32 }, ⟨0x200000F3#32, 14⟩,
    ⟨0x20000100#32, 8⟩, by decide, by decide, ⟨0x20000100, by decide⟩, by decide, by decide⟩

/-- A read of the last byte of a buffer handed over in a ring not yet active, and a command over it before the ring has
a place. -/
theorem witness_BrokenContractsStopTheRun_buffers :
    view (step { rxState 0xA0000000#32 0x20002000#32 [] with
        rxActive := false
        handed := [Handover.fresh 0x20000200#32]
        schedule := [.hostRead 0x200025E9#32 .w8] }) (fun t => t.handed.map (·.rx)) = some [some .ownership] ∧
      (⟨0x200025E9#32, 14⟩ ∈ ppFootprint { cmd 0x200025E9#32 0#32 0#32 0#32 0#32 [] with ppCmd := 2#32 } ∧
        bytesMeet 0x200025E9#32 14 0x20002000#32 Platform.reference.maxFrameSize) ∧
      (handedAfterPp { cmd 0x200025E9#32 0#32 0#32 0#32 0#32 [] with
        ppCmd := 2#32
        mem := store32 (store32 [] 0x20000200#32 0xA0000000#32) 0x20000204#32 0x20002000#32
        handed := [Handover.fresh 0x20000200#32] }).map (·.rx) = [some .sharedMemory] :=
  ⟨by decide, ⟨by decide, ⟨0x200025E9, by decide⟩⟩, by decide⟩

/-- A hand-over in an inactive ring, noted clean; then a store to its word 1, noted as broken for both rings. -/
theorem witness_BrokenContractsStopTheRun_noted :
    view (step { std with schedule := [.hostWrite 0x20000100#32 .w32 0x8000000E#32] }) (fun t => t.handed) =
      some [⟨0x20000100#32, false, none, none, none, none⟩] ∧
    view (step { txState 0x8000000E#32 0x20001000#32 with
        txActive := false
        handed := [Handover.fresh 0x20000100#32]
        schedule := [.hostWrite 0x20000104#32 .w32 0x20001000#32] }) (fun t => t.handed) =
      some [⟨0x20000100#32, true, some .handover, some .handover, some .handover, some .handover⟩] := by decide

/-! ## The contract: what is outside it and what is not (R400, R401, R407, U13) -/

/-- The Rx ring of one descriptor at 0x20000200, ready, not active, with a hand-over on record and turns to come. -/
def stoppedRx (h : Handover) (turns : List Turn) : State :=
  { rxState 0xA0000000#32 0x20002000#32 [] with rxActive := false, handed := [h], schedule := turns }

/-- R400, R401: a second store to word 0 of an owned descriptor, and a partial store to word 0 after one to word 1, are
noted, and neither is forgotten when the ring is set up again. -/
theorem test_contract_second_store :
    view (step (stoppedRx (.fresh 0x20000200#32) [.hostWrite 0x20000200#32 .w32 0xE0000000#32]))
      (fun t => t.handed.map fun h => (h.rx, h.rxAnew)) = some [(some .ownership, some .ownership)] ∧
    view (step (stoppedRx ⟨0x20000200#32, true, some .handover, some .handover, some .handover, some .handover⟩
        [.hostWrite 0x20000200#32 .w8 0x40#32]))
      (fun t => t.handed.map fun h => (h.rx, h.rxAnew)) = some [(some .handover, some .handover)] := by decide

/-- R320: the descriptor built anew, word 1 first, then `RDSR`, is in order; without the write to `RDSR` it is not. -/
theorem test_contract_rebuilt :
    view (step (stoppedRx ⟨0x20000200#32, true, some .handover, some .handover, some .handover, some .handover⟩
        [.hostWrite 0x20000200#32 .w32 0xE0000000#32]))
      (fun t => t.handed.map fun h => (h.rx, h.rxAnew)) = some [(some .handover, none)] ∧
    view (step (stoppedRx ⟨0x20000200#32, false, some .handover, some .handover, none, some .handover⟩
        [.hostWrite 0x40000014#32 .w32 0x20000200#32])) (fun t => t.handed.map (·.rx)) = some [none] ∧
    faultOf (step (stoppedRx ⟨0x20000200#32, false, some .handover, some .handover, none, some .handover⟩
      [.hostWrite 0x4000001C#32 .w32 1#32])) = some .handover ∧
    view (step (stoppedRx ⟨0x20000200#32, false, some .handover, none, none, some .handover⟩ [.hostWrite 0x4000001C#32 .w32 1#32]))
      (fun t => t.rxActive) = some true := by decide

/-- R407, U13: a ring of one descriptor without `WRAP` whose buffer follows it and begins with a set bit 31: the frame is
sent and the pointer runs on. -/
theorem test_contract_runs_on :
    view (step { txState 0#32 0#32 with
        platform := { Platform.reference with txCapacity := 1 }
        tdsr := 0x20000FF8#32
        tdcur := 0x20000FF8#32
        mem := store32 (store32 (storeBytes [] 0x20001000#32 [0xFF#8, 0xFF#8, 0xFF#8, 0xFF#8]) 0x20000FF8#32 0x8000000E#32)
          0x20000FFC#32 0x20001000#32 }) (fun t => (t.tdcur, t.wireTx.length)) = some (0x20001000#32, 1) := by decide

/-- R192, U20: a length out of range completes with `ERR` though its bytes would run into the Rx ring and its buffers. -/
theorem test_contract_bad_length :
    view (step { txState 0x8000FFFF#32 0x20000110#32 with rdsr := 0x20000200#32, rdcur := 0x20000200#32 })
      (fun t => (load32 t.mem 0x20000100#32, t.counters.txErr)) = some (0x1800FFFF#32, 1#32) := by decide

/-- A stopped Tx ring of two slots at 0x20000100 with `TDCUR` one slot past them, where a ready descriptor stands. -/
def pastArray (h : List Handover) (turns : List Turn) : State :=
  { txState 0#32 0#32 with
    txActive := false
    tdcur := 0x20000110#32
    mem := store32 (store32 [] 0x20000110#32 0x8000002A#32) 0x20000114#32 0x20001000#32
    handed := h
    schedule := turns }

/-- R400, R401 with 95 row X14: the ready descriptor at `TDCUR` past the array is sent after a clean stop, but not once
its word 1 was stored again; without a record that store is noted. -/
theorem test_contract_pointer_past_array :
    view (step (pastArray [.fresh 0x20000110#32] [.hostWrite 0x40000018#32 .w32 1#32])) (·.txActive) = some true ∧
    faultOf (step (pastArray [⟨0x20000110#32, true, some .handover, some .handover, some .handover, some .handover⟩]
      [.hostWrite 0x40000018#32 .w32 1#32])) = some .handover ∧
    view (step (pastArray [] [.hostWrite 0x20000114#32 .w32 0x20001004#32])) (fun t => t.handed.map (·.tx)) =
      some [some .handover] := by decide

/-- R402, 95 row X9: a write to the trigger of a ring already active changes nothing, also where the ring has run on to
words stored with bit 31 set and then the word after them (U13). -/
theorem test_active_ring_is_not_activated :
    view (step { pastArray [⟨0x20000110#32, true, some .handover, some .handover, some .handover, some .handover⟩]
        [.hostWrite 0x40000018#32 .w32 1#32] with txActive := true }) (fun t => (t.txActive, t.tdcur)) =
      some (true, 0x20000110#32) ∧
    view (step { rxState 0xA0000000#32 0x20002000#32 [] with
        handed := [⟨0x20000200#32, true, none, some .handover, none, none⟩]
        schedule := [.hostWrite 0x4000001C#32 .w32 1#32] }) (·.rxActive) = some true := by decide

/-- R96 at the pointer past the array: its buffer meets the footprint.  R407: an array that runs on from 0xFFFFFFF8 to 0
meets the other ring there. -/
theorem test_contract_shared :
    faultOf (step { pastArray [] [.pp] with ppBusy := true, ppCmd := 2#32, p := { State.reset.p with p0 := 0x20001029#32 } }) =
      some .sharedMemory ∧
    sharingOk { std with tdsr := 0xFFFFFFF8#32, rdsr := 0x20000200#32 } = true ∧
    sharingOk { std with tdsr := 0xFFFFFFF8#32, rxActive := true } = false := by decide

/-- A `CKSUM` of `n` bytes at `a` pending over a Tx ring of two slots at 0x20000100 that are not ready. -/
def overArray (a n : Word) : State :=
  { cmd a n 0#32 0#32 0#32 [] with ppCmd := 1#32, tdsr := 0x20000100#32, tdcur := 0x20000100#32, schedule := [.pp] }

/-- R222: a length over 0xFFFF and a range outside `DmaWindow` end with their codes over a descriptor array without
`OWN = 1`; R407: a command that would access the array stops. -/
theorem test_error_codes_over_an_array :
    view (step (overArray 0x20000100#32 0x10000#32)) (·.ppResult) = some .errBadArg ∧
    view (step (overArray 0x1FFFFFFF#32 0x200#32)) (·.ppResult) = some .errBus ∧
    faultOf (step (overArray 0x2000010F#32 1#32)) = some .sharedMemory ∧
    view (step (overArray 0x20000110#32 1#32)) (·.ppResult) = some .ok := by decide

/-- R401: host data with bit 31 set stands at 0x20000100 and a Tx descriptor is built there in order, word 1, whole word
0, then `TDSR`: no breach.  R322: over a ready descriptor of a placed Tx ring the note stays. -/
theorem test_contract_tx_over_data :
    view (step { std with
        mem := store32 [] 0x20000100#32 0xFFFFFFFF#32
        handed := [⟨0x20000100#32, true, some .handover, some .handover, some .handover, some .handover⟩]
        schedule := [.hostWrite 0x20000100#32 .w32 0x8000000E#32] })
      (fun t => t.handed.map fun h => (h.tx, h.txAnew)) = some [(some .handover, none)] ∧
    view (step { std with
        handed := [⟨0x20000100#32, false, some .handover, none, none, none⟩]
        schedule := [.hostWrite 0x40000010#32 .w32 0x20000100#32] }) (fun t => t.handed.map (·.tx)) = some [none] ∧
    view (step { txState 0x8000000E#32 0x20001000#32 with
        txActive := false
        handed := [⟨0x20000100#32, true, some .handover, none, none, some .handover⟩]
        schedule := [.hostWrite 0x20000100#32 .w32 0x8000000E#32] })
      (fun t => t.handed.map (·.txAnew)) = some [some .handover] := by decide

end Sys2Proof.Tests
end

section
/-! The end-around carry does not depend on when it is taken (spec 00_scope R15), and what follows for chained sums (R225,
R233) and for headers that carry their checksum (R229). -/

namespace Sys2Proof.Machine

/-- The folded value is decided by the residue modulo 0xFFFF and by whether the sum is zero. -/
theorem foldCarry_congr {v w : Nat} (hmod : v % 0xFFFF = w % 0xFFFF) (hzero : v = 0 ↔ w = 0) :
    foldCarry v = foldCarry w := by
  rw [foldCarry_eq, foldCarry_eq]
  unfold foldValue
  by_cases hv : v = 0
  · rw [if_pos hv, if_pos (hzero.1 hv)]
  · rw [if_neg hv, if_neg (mt hzero.2 hv)]
    omega

theorem foldCarry_eq_zero_iff (v : Nat) : foldCarry v = 0 ↔ v = 0 := by
  refine ⟨fun h => ?_, fun h => by rw [h]; rfl⟩
  by_contra hv
  exact foldCarry_pos hv h

/-- A folded part of a sum may stand for the part itself. -/
theorem foldCarry_foldCarry_add (v w : Nat) : foldCarry (foldCarry v + w) = foldCarry (v + w) := by
  have hmod := foldCarry_mod v
  have hzero := foldCarry_eq_zero_iff v
  exact foldCarry_congr (by omega) (by omega)

/-- A sum and the complement of its folded value add up to all ones. -/
theorem foldCarry_add_complement (v : Nat) : foldCarry (v + (0xFFFF - foldCarry v)) = 0xFFFF := by
  have hmod := foldCarry_mod v
  have hle := foldCarry_le v
  have hzero := foldCarry_eq_zero_iff v
  calc foldCarry (v + (0xFFFF - foldCarry v)) = foldCarry 0xFFFF := foldCarry_congr (by omega) (by omega)
    _ = 0xFFFF := by rw [foldCarry_eq]; rfl

theorem toNat_cksumOf (d : List Byte) (s : Half) :
    (cksumOf d s).toNat = 0xFFFF - foldCarry (s.toNat + wordSum d) := by
  simp [cksumOf, BitVec.toNat_not]

/-- The two bytes of a field add its value. -/
theorem wordSum_beBytes2_append (v : Half) (e : List Byte) : wordSum (beBytes2 v ++ e) = v.toNat + wordSum e := by
  simp only [beBytes2, List.cons_append, List.nil_append, wordSum_cons_cons, BitVec.extractLsb'_toNat]
  have := v.isLt
  omega

/-- The sum of a header around an evenly placed 16-bit field. -/
theorem wordSum_around_field {d : List Byte} (h : d.length % 2 = 0) (v : Half) (e : List Byte) :
    wordSum (d ++ beBytes2 v ++ e) = v.toNat + (wordSum d + wordSum e) := by
  rw [List.append_assoc, wordSum_append d _ h, wordSum_beBytes2_append]
  omega

/-- Settles O36: the fold of the first part is taken early, which changes nothing. -/
theorem checksumsChain : Obligations.ChecksumsChain := by
  intro d e seed hd
  apply BitVec.eq_of_toNat_eq
  rw [toNat_ocsum, toNat_ocsum, toNat_ocsum, wordSum_append d e hd, foldCarry_foldCarry_add, Nat.add_assoc]

/-- Settles O37: the field adds the complement of the folded sum of the rest. -/
theorem checksummedHeadersVerify : Obligations.ChecksummedHeadersVerify := by
  intro d e hd
  have hblank : wordSum (d ++ [0#8, 0#8] ++ e) = wordSum d + wordSum e :=
    (wordSum_around_field hd 0#16 e).trans (Nat.zero_add _)
  apply BitVec.eq_of_toNat_eq
  rw [toNat_cksumOf, wordSum_around_field hd, toNat_cksumOf, hblank, BitVec.toNat_ofNat, Nat.zero_mod, Nat.zero_add,
    Nat.zero_add, Nat.add_comm, foldCarry_add_complement]

end Sys2Proof.Machine
end

section
/-! What every operation, every fetch and so every step leaves alone (R8, R11): the platform and the turns still to
come. -/

namespace Sys2Proof.Machine

/-- `t` has the platform of `s` and the same turns still to come. -/
def KeepsContext (s t : State) : Prop := t.platform = s.platform ∧ t.schedule = s.schedule

theorem keepsContext_refl (s : State) : KeepsContext s s := ⟨rfl, rfl⟩

theorem KeepsContext.trans {s t u : State} (h : KeepsContext s t) (h' : KeepsContext t u) : KeepsContext s u :=
  ⟨h'.1.trans h.1, h'.2.trans h.2⟩

theorem keepsContext_of_sameButCommandState {s u : State} (h : sameButCommandState s u) : KeepsContext s u := by
  unfold sameButCommandState at h
  exact ⟨by rw [h], by rw [h]⟩

/-! ## Register accesses -/

theorem keepsContext_writeCtrl (d : Word) (s : State) : KeepsContext s (writeCtrl d s) := by
  unfold writeCtrl
  split
  · exact ⟨resetBlock_platform s, resetBlock_schedule s⟩
  · exact ⟨rfl, rfl⟩

/-- Every register is read-only or gated, and no write moves the platform or the schedule. -/
theorem exec_registerAccess (i : Instr) (s : State) (h : formatOf i = .mmio) :
    ∃ v a, exec i s = accessReadOnly v a s ∨
      ∃ ok write, exec i s = accessGated v ok write a s ∧ ∀ d, KeepsContext s (write d) := by
  cases i with
  | ctrl a => exact ⟨_, a, .inr ⟨_, _, rfl, fun d => keepsContext_writeCtrl d s⟩⟩
  | eir a | eimr a | tdsr a | rdsr a | tdar a | rdar a | rxmax a | maclo a | machi a | mmfr a | ppCmd a | p0 a | p1 a
  | p2 a | p3 a | p4 a | p5 a | p6 a | p7 a | ip4Addr a | ip4Mask a | ip4Gw a | ip4Ttl a | arpSel a =>
    exact ⟨_, a, .inr ⟨_, _, rfl, fun _ => ⟨rfl, rfl⟩⟩⟩
  | status a | tdcur a | rdcur a | cntTxSent a | cntTxErr a | cntRxStored a | cntRxNodesc a | cntRxOversize a
  | cntL2ArpAcc a | cntL2Ip4Acc a | cntL2ArpDrop a | cntL2Ip4Drop a | cntL2OtherDrop a | cntArpBad a | cntIp4Badhdr a
  | cntIp4Badcsum a | cntIp4Baddst a | cntIp4Badproto a | cntIcmpDrop a | cntUdpBadlen a | cntUdpNoport a | ppStatus a
  | arpIp a | arpMaclo a | arpMachi a | arpTs a | udpPort0 a | udpPort1 a | udpPort2 a | udpPort3 a | udpPort4 a
  | udpPort5 a | udpPort6 a | udpPort7 a | reserved _ a =>
    exact ⟨_, a, .inl rfl⟩
  | _ => cases h

theorem registerAccess_keepsContext {i : Instr} {s t : State} (hf : formatOf i = .mmio) (h : exec i s = .next t) :
    KeepsContext s t := by
  obtain ⟨v, a, e | ⟨ok, write, e, hw⟩⟩ := exec_registerAccess i s hf <;> rw [e] at h
  · rcases accessReadOnly_cases h with ⟨-, rfl⟩ | ⟨d, -, rfl⟩
    · exact ⟨rfl, rfl⟩
    · exact keepsContext_refl _
  · rcases accessGated_cases h with ⟨-, rfl⟩ | ⟨d, -, -, rfl⟩ | ⟨d, -, -, rfl⟩
    · exact ⟨rfl, rfl⟩
    · exact hw d
    · exact keepsContext_refl _

/-! ## Descriptors -/

theorem rxScreen_keepsContext {f : List Byte} {s t : State} (h : rxScreen f s = some t) : KeepsContext s t := by
  rcases rxScreen_cases f s with ⟨-, e⟩ | ⟨-, -, e⟩ | ⟨-, -, e⟩ <;> rw [e] at h <;> cases h
  · exact ⟨rfl, rfl⟩
  · exact ⟨rfl, rfl⟩

theorem rxStore_keepsContext {f : List Byte} {c : DescCtl} {buf : Word} {s t : State}
    (h : rxStore f c buf s = some t) : KeepsContext s t := by
  rcases rxStore_cases f c buf s with ⟨-, e⟩ | ⟨-, e⟩ <;> rw [e] at h <;> cases h
  simp [KeepsContext]

theorem loopbackReceive_keepsContext {f : List Byte} {s t : State} (h : loopbackReceive f s = some t) :
    KeepsContext s t := by
  rcases loopbackReceive_cases f s with ⟨u, hu, e⟩ | ⟨-, -, -, e⟩ | ⟨u, -, -, -, hu, e⟩ | e <;> rw [e] at h <;> cases h
  · exact rxScreen_keepsContext hu
  · exact ⟨rfl, rfl⟩
  · exact rxStore_keepsContext hu

theorem txDeliver_keepsContext {f : List Byte} {s t : State} (h : txDeliver f s = some t) : KeepsContext s t := by
  rcases txDeliver_cases f s with ⟨-, e⟩ | ⟨-, e⟩ <;> rw [e] at h
  · cases h
    exact ⟨rfl, rfl⟩
  · exact loopbackReceive_keepsContext h

theorem keepsContext_txFinish (c : DescCtl) (s : State) : KeepsContext s (txFinish c s) := by
  simp [KeepsContext, txFinish]

theorem keepsContext_txReject (c : DescCtl) (s : State) : KeepsContext s (txReject c s) := by
  simp [KeepsContext, txReject]

theorem keepsContext_busError (s : State) : KeepsContext s (busError s) := ⟨rfl, rfl⟩

theorem keepsContext_txProcess (c : DescCtl) (buf : Word) (s : State) : KeepsContext s (txProcess c buf s) := by
  rcases txProcess_cases c buf s with ⟨-, e⟩ | ⟨-, e⟩ | ⟨t, -, -, ht, e⟩ <;> rw [e]
  · exact keepsContext_txReject c s
  · exact keepsContext_busError s
  · exact (txDeliver_keepsContext ht).trans (keepsContext_txFinish c t)

theorem execTxd_keepsContext {c : DescCtl} {buf : Word} {s t : State} (h : execTxd c buf s = .next t) :
    KeepsContext s t := by
  obtain rfl := Host.Outcome.next.inj h
  split
  · exact keepsContext_txProcess c buf s
  · exact keepsContext_refl s

theorem execRxd_keepsContext {c : DescCtl} {buf : Word} {s t : State} (h : execRxd c buf s = .next t) :
    KeepsContext s t := by
  obtain rfl := Host.Outcome.next.inj h
  split
  · exact keepsContext_refl s
  split
  · rename_i hu; exact rxScreen_keepsContext hu
  split
  · rename_i hu; exact rxStore_keepsContext hu
  · exact keepsContext_busError s

theorem execRxdStop_keepsContext {c : DescCtl} {s t : State} (h : execRxdStop c s = .next t) : KeepsContext s t := by
  obtain rfl := Host.Outcome.next.inj h
  split
  · exact keepsContext_refl s
  split
  · rename_i hu; exact rxScreen_keepsContext hu
  · exact ⟨rfl, rfl⟩

/-! ## Management frames and commands -/

theorem execMdioRead_keepsContext {pa ra : BitVec 5} {ta : BitVec 2} {data : Half} {s t : State}
    (h : execMdioRead pa ra ta data s = .next t) : KeepsContext s t := by
  obtain rfl := Host.Outcome.next.inj h
  split <;> exact ⟨rfl, rfl⟩

theorem execMdioWrite_keepsContext {pa ra : BitVec 5} {ta : BitVec 2} {data : Half} {s t : State}
    (h : execMdioWrite pa ra ta data s = .next t) : KeepsContext s t := by
  obtain rfl := Host.Outcome.next.inj h
  split <;> exact ⟨rfl, rfl⟩

theorem execMmfrNoOperation_keepsContext {w : Word} {s t : State} (h : execMmfrNoOperation w s = .next t) :
    KeepsContext s t := by
  obtain rfl := Host.Outcome.next.inj h
  split <;> exact ⟨rfl, rfl⟩

theorem ppCommand_keepsContext {i : Instr} {s t : State} (hf : formatOf i = .ppCmd) (h : exec i s = .next t) :
    KeepsContext s t := by
  obtain ⟨check, foot, len, effect, e, good⟩ := exec_ppCommand i s hf
  rw [e] at h
  refine ppComplete_keeps h (keepsContext_refl s) (fun c u hu => ?_) (fun c u _ _ hu => ?_)
  · exact hu.trans ⟨ppFinish_platform c u, ppFinish_schedule c u⟩
  · exact keepsContext_of_sameButCommandState (good c u hu).1

/-- No operation moves the platform or the schedule. -/
theorem exec_keepsContext {i : Instr} {s t : State} (h : exec i s = .next t) : KeepsContext s t := by
  cases hf : formatOf i with
  | mmio => exact registerAccess_keepsContext hf h
  | ppCmd => exact ppCommand_keepsContext hf h
  | txDesc =>
    cases i with
    | txd c buf => exact execTxd_keepsContext h
    | txdStop c => cases h; exact ⟨rfl, rfl⟩
    | _ => cases hf
  | rxDesc =>
    cases i with
    | rxd c buf => exact execRxd_keepsContext h
    | rxdStop c => exact execRxdStop_keepsContext (c := c) h
    | _ => cases hf
  | mmfr =>
    cases i with
    | mdioRead pa ra ta data => exact execMdioRead_keepsContext (ta := ta) (data := data) h
    | mdioWrite pa ra ta data => exact execMdioWrite_keepsContext (ta := ta) h
    | mmfrNoOperation w => exact execMmfrNoOperation_keepsContext h
    | _ => cases hf

/-! ## The fetch and the step -/

/-- The state a turn leaves, or hands to an operation, has the platform and the schedule of `s`. -/
def Fetched.KeepsContext (s : State) : Fetched → Prop
  | .settled t | .run _ t => Machine.KeepsContext s t
  | .stop _ | .refuse _ => True

theorem fetchAccess_keepsContext (addr : Word) (width : Width) (a : RegAccess) (s : State) :
    (fetchAccess addr width a s).KeepsContext s := by
  rcases fetchAccess_cases addr width a s with e | ⟨i, -, -, -, ⟨f, -, e⟩ | ⟨-, e⟩⟩ <;> rw [e]
  · trivial
  · trivial
  · exact ⟨rfl, rfl⟩

theorem hostLoad_keepsContext (addr : Word) (width : Width) (s : State) : (hostLoad addr width s).KeepsContext s := by
  rcases hostLoad_cases addr width s with ⟨-, e⟩ | ⟨f, -, e⟩ | ⟨-, -, e⟩ <;> rw [e]
  · trivial
  · trivial
  · exact ⟨rfl, rfl⟩

theorem hostStoreBytes_keepsContext (addr : Word) (bytes : List Byte) (s : State) :
    (hostStoreBytes addr bytes s).KeepsContext s := by
  rcases hostStoreBytes_cases addr bytes s with ⟨-, e⟩ | ⟨f, -, e⟩ | ⟨-, -, e⟩ <;> rw [e]
  · trivial
  · trivial
  · exact ⟨rfl, rfl⟩

theorem fetchDesc_keepsContext (d : Word) (dec : Word → Word → Instr) (s : State) :
    (fetchDesc d dec s).KeepsContext s := by
  rcases fetchDesc_cases d dec s with e | ⟨-, f, -, e⟩ | ⟨-, -, -, e⟩ | ⟨-, -, -, -, e⟩ <;> rw [e]
  · exact keepsContext_busError s
  · trivial
  · exact keepsContext_refl s
  · exact keepsContext_refl s

theorem fetchTx_keepsContext (s : State) : (fetchTx s).KeepsContext s := by
  unfold fetchTx
  split
  · exact fetchDesc_keepsContext _ _ s
  · exact keepsContext_refl s

theorem fetchRx_keepsContext (s : State) : (fetchRx s).KeepsContext s := by
  unfold fetchRx
  split
  · exact keepsContext_refl s
  split
  · rename_i hu; exact rxScreen_keepsContext hu
  · exact fetchDesc_keepsContext _ _ s

theorem fetchPp_keepsContext (s : State) : (fetchPp s).KeepsContext s := by
  unfold fetchPp
  split
  · trivial
  · exact ⟨rfl, rfl⟩

/-- Whatever the turn, its fetch moves neither the platform nor the schedule. -/
theorem fetchTurn_keepsContext (t : Turn) (s : State) : (fetchTurn t s).KeepsContext s := by
  cases t with
  | hostRead addr width =>
    simp only [fetchTurn, fetchHostRead]
    split
    · exact fetchAccess_keepsContext _ _ _ s
    · exact hostLoad_keepsContext _ _ s
  | hostWrite addr width d =>
    simp only [fetchTurn, fetchHostWrite]
    split
    · exact fetchAccess_keepsContext _ _ _ s
    · exact hostStoreBytes_keepsContext _ _ s
  | hostStore addr bytes =>
    simp only [fetchTurn, fetchHostStore]
    split
    · trivial
    · exact hostStoreBytes_keepsContext _ _ s
  | txdma => exact fetchTx_keepsContext s
  | mdio answer => exact ⟨rfl, rfl⟩
  | pp => exact fetchPp_keepsContext s
  | wire frame => exact fetchRx_keepsContext { s with wireIn := frame }
  | reset => exact ⟨resetBlock_platform s, resetBlock_schedule s⟩

/-- A step ends in the state its turn has settled, or in one its operation leaves. -/
theorem step_next {s t : State} (h : step s = .next t) :
    fetch s = .settled t ∨ ∃ i u, fetch s = .run i u ∧ exec i u = .next t := by
  unfold step at h
  split at h
  · rename_i u hf
    cases h
    exact .inl hf
  · cases h
  · cases h
  · rename_i i u hf
    exact .inr ⟨i, u, hf, h⟩

theorem fetch_nil {s : State} (h : s.schedule = []) : fetch s = .settled s := by
  simp [fetch, h]

theorem fetch_cons {s : State} {turn : Turn} {rest : List Turn} (h : s.schedule = turn :: rest) :
    fetch s = fetchTurn turn { s with schedule := rest } := by
  simp [fetch, h]

theorem step_nil {s : State} (h : s.schedule = []) : step s = .next s := by
  simp [step, fetch_nil h]

/-- A step takes the turn whose fetch it makes, and no other. -/
theorem step_cons_keepsContext {s t : State} {turn : Turn} {rest : List Turn} (hs : s.schedule = turn :: rest)
    (h : step s = .next t) : KeepsContext { s with schedule := rest } t := by
  have hk := fetchTurn_keepsContext turn { s with schedule := rest }
  rcases step_next h with e | ⟨i, u, e, hi⟩ <;> rw [fetch_cons hs] at e <;> rw [e] at hk
  · exact hk
  · exact KeepsContext.trans hk (exec_keepsContext hi)

/-- Settles O7: by whether a turn is left. -/
theorem stepTakesOneTurn : Obligations.StepTakesOneTurn := by
  intro s
  refine ⟨step_nil, fun t h => ?_⟩
  cases hs : s.schedule with
  | nil =>
    rw [step_nil hs] at h
    cases h
    exact ⟨hs, rfl⟩
  | cons turn rest =>
    obtain ⟨hplatform, hschedule⟩ := step_cons_keepsContext hs h
    exact ⟨hschedule, hplatform⟩

end Sys2Proof.Machine
end

section
/-! The decoder on the bytes an agent has fetched, and from them the step of each agent (R7, R8). -/

namespace Sys2Proof.Machine

/-! ## The decoder on fetched bytes -/

theorem decode_mmfr_leBytes4 (w : Word) : decode .mmfr (leBytes4 w) = .ok (decodeMmfr w) :=
  congrArg (fun v => Decoded.ok (decodeMmfr v)) (ofLe4_leBytes4 w)

theorem decode_ppCmd_leBytes4 (w : Word) : decode .ppCmd (leBytes4 w) = .ok (decodePp w) :=
  congrArg (fun v => Decoded.ok (decodePp v)) (ofLe4_leBytes4 w)

/-- The eight bytes of a descriptor are its two little-endian words. -/
theorem loadBytes_eight (m : Memory) (a : Word) :
    loadBytes m a 8 =
      [loadByte m a.toNat, loadByte m (a + 1#32).toNat, loadByte m (a + 2#32).toNat, loadByte m (a + 3#32).toNat,
        loadByte m (a + 4#32).toNat, loadByte m (a + 4#32 + 1#32).toNat, loadByte m (a + 4#32 + 2#32).toNat,
        loadByte m (a + 4#32 + 3#32).toNat] := by
  simp [loadBytes, BitVec.add_assoc]

theorem decode_txDesc_loadBytes (m : Memory) (a : Word) :
    decode .txDesc (loadBytes m a 8) = .ok (decodeTxDesc (load32 m a) (load32 m (a + 4#32))) := by
  rw [loadBytes_eight]
  rfl

theorem decode_rxDesc_loadBytes (m : Memory) (a : Word) :
    decode .rxDesc (loadBytes m a 8) = .ok (decodeRxDesc (load32 m a) (load32 m (a + 4#32))) := by
  rw [loadBytes_eight]
  rfl

/-- Word 1 of a Tx descriptor that is not ready is not read (R91). -/
theorem decodeTxDesc_stop {w0 : Word} (h : ownBit w0 = false) (w1 w1' : Word) :
    decodeTxDesc w0 w1 = decodeTxDesc w0 w1' := by
  simp [decodeTxDesc, h]

/-- Word 1 of an Rx descriptor that is not ready is not read (R91). -/
theorem decodeRxDesc_stop {w0 : Word} (h : ownBit w0 = false) (w1 w1' : Word) :
    decodeRxDesc w0 w1 = decodeRxDesc w0 w1' := by
  simp [decodeRxDesc, h]

/-- Appending bit vectors, as arithmetic. -/
theorem toNat_append_eq_add {m n : Nat} (x : BitVec m) (y : BitVec n) :
    (x ++ y).toNat = x.toNat * 2 ^ n + y.toNat := by
  rw [BitVec.toNat_append, ← Nat.shiftLeft_add_eq_or_of_lt y.isLt, Nat.shiftLeft_eq]

/-- A field of a bit vector, as arithmetic. -/
theorem toNat_extractLsb'_eq {w : Nat} (x : BitVec w) (start len : Nat) :
    (x.extractLsb' start len).toNat = x.toNat / 2 ^ start % 2 ^ len := by
  rw [BitVec.extractLsb'_toNat, Nat.shiftRight_eq_div_pow]

theorem getLsbD_eq_decide {w : Nat} (x : BitVec w) (i : Nat) : x.getLsbD i = decide (x.toNat / 2 ^ i % 2 = 1) :=
  Nat.testBit_eq_decide_div_mod_eq

/-- Six little-endian bytes put together again. -/
theorem leBytes6_append (v : BitVec 48) :
    v.extractLsb' 40 8 ++ v.extractLsb' 32 8 ++ v.extractLsb' 24 8 ++ v.extractLsb' 16 8 ++ v.extractLsb' 8 8 ++
      v.extractLsb' 0 8 = v := by
  apply BitVec.eq_of_toNat_eq
  have hv := v.isLt
  simp only [toNat_append_eq_add, toNat_extractLsb'_eq]
  omega

theorem toNat_mmioBits_read (offset : BitVec 12) : (mmioBits offset .read).toNat = offset.toNat := by
  simp only [mmioBits, toNat_append_eq_add, BitVec.toNat_ofNat]
  omega

theorem toNat_mmioBits_write (offset : BitVec 12) (data : Word) :
    (mmioBits offset (.write data)).toNat = data.toNat * 2 ^ 13 + 2 ^ 12 + offset.toNat := by
  simp only [mmioBits, toNat_append_eq_add, BitVec.toNat_ofNat]
  omega

/-- The three bits above the access triple are zero (log 7). -/
theorem mmioBits_padding (offset : BitVec 12) (a : RegAccess) : (mmioBits offset a).extractLsb' 45 3 = 0#3 := by
  apply BitVec.eq_of_toNat_eq
  have ho := offset.isLt
  rw [toNat_extractLsb'_eq, BitVec.toNat_ofNat]
  cases a with
  | read => rw [toNat_mmioBits_read]; omega
  | write data => have hd := data.isLt; rw [toNat_mmioBits_write]; omega

theorem mmioBits_offset (offset : BitVec 12) (a : RegAccess) : (mmioBits offset a).extractLsb' 0 12 = offset := by
  apply BitVec.eq_of_toNat_eq
  have ho := offset.isLt
  rw [toNat_extractLsb'_eq]
  cases a with
  | read => rw [toNat_mmioBits_read]; omega
  | write data => rw [toNat_mmioBits_write]; omega

theorem mmioBits_data (offset : BitVec 12) (data : Word) :
    (mmioBits offset (.write data)).extractLsb' 13 32 = data := by
  apply BitVec.eq_of_toNat_eq
  have ho := offset.isLt
  have hd := data.isLt
  rw [toNat_extractLsb'_eq, toNat_mmioBits_write]
  omega

theorem mmioAccess_mmioBits (offset : BitVec 12) (a : RegAccess) : mmioAccess (mmioBits offset a) = a := by
  have ho := offset.isLt
  unfold mmioAccess
  rw [getLsbD_eq_decide]
  cases a with
  | read =>
    rw [toNat_mmioBits_read, if_neg]
    rw [decide_eq_true_eq]
    omega
  | write data =>
    rw [toNat_mmioBits_write, mmioBits_data, if_pos]
    rw [decide_eq_true_eq]
    omega

theorem decode_encodeMmio (offset : BitVec 12) (a : RegAccess) :
    decode .mmio (encodeMmio offset a) = decodeMmio offset a := by
  simp only [encodeMmio, leBytes6, decode, leBytes6_append, mmioBits_padding, mmioBits_offset, mmioAccess_mmioBits,
    ne_eq, not_true_eq_false, if_false]

/-! ## The register window -/

theorem toNat_window_address {base : Word} (h : base.toNat % 0x1000 = 0) (offset : BitVec 12) :
    (base + offset.setWidth 32).toNat = base.toNat + offset.toNat := by
  have hb := base.isLt
  have ho := offset.isLt
  rw [BitVec.toNat_add, BitVec.toNat_setWidth]
  omega

theorem inWindow_window_address {pf : Platform} (h : pf.base.toNat % 0x1000 = 0) (offset : BitVec 12) :
    inWindow pf (pf.base + offset.setWidth 32).toNat = true := by
  have ho := offset.isLt
  rw [toNat_window_address h]
  simp only [inWindow, Bool.and_eq_true, decide_eq_true_eq, Config.windowSize]
  omega

theorem touchesWindow_of_inWindow {pf : Platform} {a : Word} {n : Nat} (hn : 0 < n) (h : inWindow pf a.toNat = true) :
    touchesWindow pf a n = true := by
  simp only [touchesWindow, List.any_eq_true, List.mem_range]
  exact ⟨0, hn, h⟩

theorem offset_of_window_address (base : Word) (offset : BitVec 12) :
    (base + offset.setWidth 32 - base).extractLsb' 0 12 = offset := by
  apply BitVec.eq_of_toNat_eq
  have ho := offset.isLt
  rw [add_sub_cancel_left, toNat_extractLsb'_eq, BitVec.toNat_setWidth]
  omega

/-- A 32-bit access to an offset of the window runs the operation the offset decodes to, unless the contract stops it. -/
theorem fetchAccess_window {s : State} (hb : s.platform.base.toNat % 0x1000 = 0) {offset : BitVec 12} {a : RegAccess}
    {i : Instr} (hi : decodeMmio offset a = .ok i) (hc : accessBreach i s = none) :
    fetchAccess (s.platform.base + offset.setWidth 32) .w32 a s = .run i { s with handed := handedAfterAccess i s } := by
  simp only [fetchAccess, inWindow_window_address hb, offset_of_window_address, hi, hc, ne_eq, not_true_eq_false,
    decide_false, Bool.not_true, Bool.or_self, Bool.false_eq_true, if_false]

/-! ## Descriptors -/

/-- An admitted descriptor under a kept contract runs the operation its two words decode to; a decoder that ignores word 1
of a descriptor that is not ready may be given it all the same. -/
theorem fetchDesc_run {d : Word} {dec : Word → Word → Instr} {s : State} (h0 : admitted s.platform d 4 = true)
    (h1 : ownBit (load32 s.mem d) = true → admitted s.platform (d + 4#32) 4 = true) (hc : contractBreach s = none)
    (hdec : ∀ {w0 : Word}, ownBit w0 = false → ∀ w1 w1' : Word, dec w0 w1 = dec w0 w1') :
    fetchDesc d dec s = .run (dec (load32 s.mem d) (load32 s.mem (d + 4#32))) s := by
  cases hown : ownBit (load32 s.mem d) with
  | false => simp [fetchDesc, isReady, h0, hown, hc, hdec hown 0#32 (load32 s.mem (d + 4#32))]
  | true => simp [fetchDesc, isReady, h0, hown, h1 hown, hc]

/-- The frames that reach the descriptor at `RDCUR` (R206, R207). -/
theorem rxScreen_eq_none_iff (f : List Byte) (s : State) :
    rxScreen f s = none ↔ s.rxActive = true ∧ f.length ≤ s.rxmax.toNat := by
  rcases rxScreen_cases f s with ⟨ha, e⟩ | ⟨-, hl, e⟩ | ⟨ha, hl, e⟩ <;> rw [e]
  · simp [ha]
  · simpa using fun _ => hl
  · simp [ha, hl]

theorem fetchRx_of_screened {s : State} (hg : rxIgnores s = false) (hf : rxScreen s.wireIn s = none) :
    fetchRx s = fetchDesc s.rdcur decodeRxDesc s := by
  simp [fetchRx, hg, hf]

/-! ## The contract does not read the turns and frames still to come -/

theorem contractBreach_schedule (s : State) (rest : List Turn) :
    contractBreach { s with schedule := rest } = contractBreach s := rfl

theorem contractBreach_latched (s : State) (rest : List Turn) (f : List Byte) :
    contractBreach { s with schedule := rest, wireIn := f } = contractBreach s := rfl

theorem footprintApart_schedule (s : State) (rest : List Turn) :
    footprintApart { s with schedule := rest } = footprintApart s := rfl

theorem handedAfterPp_schedule (s : State) (rest : List Turn) :
    handedAfterPp { s with schedule := rest } = handedAfterPp s := rfl

theorem accessBreach_schedule (i : Instr) (s : State) (rest : List Turn) :
    accessBreach i { s with schedule := rest } = accessBreach i s := rfl

theorem handedAfterAccess_schedule (i : Instr) (s : State) (rest : List Turn) :
    handedAfterAccess i { s with schedule := rest } = handedAfterAccess i s := rfl

/-! ## The step of each agent -/

theorem step_of_run {s t : State} {turn : Turn} {rest : List Turn} {i : Instr} (hs : s.schedule = turn :: rest)
    (hf : fetchTurn turn { s with schedule := rest } = .run i t) : step s = exec i t := by
  simp [step, fetch_cons hs, hf]

/-- TXDMA (R190 to R193). -/
theorem step_txdma {s : State} {rest : List Turn} {i : Instr} (hs : s.schedule = .txdma :: rest)
    (ha : s.txActive = true) (h0 : admitted s.platform s.tdcur 4 = true)
    (hi : decode .txDesc (loadBytes s.mem s.tdcur 8) = .ok i)
    (h1 : ownBit (load32 s.mem s.tdcur) = true → admitted s.platform (s.tdcur + 4#32) 4 = true)
    (hc : contractBreach s = none) : step s = exec i { s with schedule := rest } := by
  obtain rfl := Decoded.ok.inj ((decode_txDesc_loadBytes s.mem s.tdcur).symm.trans hi)
  refine step_of_run hs ((if_pos ha).trans ?_)
  exact fetchDesc_run h0 h1 ((contractBreach_schedule s rest).trans hc) decodeTxDesc_stop

/-- RXDMA on a frame of WIRE that passes the tests before the descriptor (R205 to R209). -/
theorem step_wire {s : State} {rest : List Turn} {i : Instr} {f : List Byte} (hs : s.schedule = .wire f :: rest)
    (hg : rxIgnores s = false) (hf : rxScreen f s = none) (h0 : admitted s.platform s.rdcur 4 = true)
    (hi : decode .rxDesc (loadBytes s.mem s.rdcur 8) = .ok i)
    (h1 : ownBit (load32 s.mem s.rdcur) = true → admitted s.platform (s.rdcur + 4#32) 4 = true)
    (hc : contractBreach s = none) : step s = exec i { s with schedule := rest, wireIn := f } := by
  obtain rfl := Decoded.ok.inj ((decode_rxDesc_loadBytes s.mem s.rdcur).symm.trans hi)
  have hscreen : rxScreen f { s with schedule := rest, wireIn := f } = none :=
    (rxScreen_eq_none_iff f _).2 ((rxScreen_eq_none_iff f s).1 hf)
  refine step_of_run hs ((fetchRx_of_screened (s := { s with schedule := rest, wireIn := f }) hg hscreen).trans ?_)
  exact fetchDesc_run h0 h1 ((contractBreach_latched s rest f).trans hc) decodeRxDesc_stop

/-- The MDIO engine (R181 to R183). -/
theorem step_mdio {s : State} {rest : List Turn} {i : Instr} {v : Half} (hs : s.schedule = .mdio v :: rest)
    (hi : decode .mmfr (leBytes4 s.mmfr) = .ok i) : step s = exec i { s with schedule := rest, phyIn := v } := by
  obtain rfl := Decoded.ok.inj ((decode_mmfr_leBytes4 s.mmfr).symm.trans hi)
  exact step_of_run hs rfl

/-- The PP (R221). -/
theorem step_pp {s : State} {rest : List Turn} {i : Instr} (hs : s.schedule = .pp :: rest)
    (hi : decode .ppCmd (leBytes4 s.ppCmd) = .ok i) (hc : footprintApart s = true) :
    step s = exec i { s with schedule := rest, handed := handedAfterPp s } := by
  obtain rfl := Decoded.ok.inj ((decode_ppCmd_leBytes4 s.ppCmd).symm.trans hi)
  refine step_of_run hs ?_
  simp only [fetchTurn, fetchPp, footprintApart_schedule, handedAfterPp_schedule, hc]
  rfl

/-- A host read of a register (R83, R111). -/
theorem step_hostRead_register {s : State} {rest : List Turn} {i : Instr} {offset : BitVec 12}
    (hb : s.platform.base.toNat % 0x1000 = 0)
    (hs : s.schedule = .hostRead (s.platform.base + offset.setWidth 32) .w32 :: rest)
    (hi : decode .mmio (encodeMmio offset .read) = .ok i) : step s = exec i { s with schedule := rest } := by
  rw [decode_encodeMmio] at hi
  obtain ⟨hc, hh⟩ := decodeMmio_read_quiet hi { s with schedule := rest }
  refine step_of_run hs ((if_pos (touchesWindow_of_inWindow (by decide) (inWindow_window_address hb offset))).trans ?_)
  rw [fetchAccess_window (s := { s with schedule := rest }) hb hi hc, hh]

/-- A host write of a register that keeps the contract (R83, R111). -/
theorem step_hostWrite_register {s : State} {rest : List Turn} {i : Instr} {offset : BitVec 12} {d : Word}
    (hb : s.platform.base.toNat % 0x1000 = 0)
    (hs : s.schedule = .hostWrite (s.platform.base + offset.setWidth 32) .w32 d :: rest)
    (hi : decode .mmio (encodeMmio offset (.write d)) = .ok i) (hc : accessBreach i s = none) :
    step s = exec i { s with schedule := rest, handed := handedAfterAccess i s } := by
  rw [decode_encodeMmio] at hi
  refine step_of_run hs ((if_pos (touchesWindow_of_inWindow (by decide) (inWindow_window_address hb offset))).trans ?_)
  rw [fetchAccess_window (s := { s with schedule := rest }) hb hi ((accessBreach_schedule i s rest).trans hc),
    handedAfterAccess_schedule]

/-- Settles O6, agent by agent. -/
theorem stepRunsTheDecodedOperation : Obligations.StepRunsTheDecodedOperation := by
  intro s rest i
  exact ⟨step_txdma, fun _ => step_wire, fun _ => step_mdio, step_pp, fun _ => step_hostRead_register,
    fun _ _ => step_hostWrite_register⟩

end Sys2Proof.Machine
end

section
/-! Which operation a turn can run (R7, R8): one of its agent's format, and a reset only on a turn that resets. -/

namespace Sys2Proof.Machine

/-- The format of the operations a turn runs (R110); a byte store and the hardware reset run none. -/
def turnFormat : Turn → Format
  | .hostRead _ _ | .hostWrite _ _ _ | .hostStore _ _ | .reset => .mmio
  | .txdma => .txDesc
  | .mdio _ => .mmfr
  | .pp => .ppCmd
  | .wire _ => .rxDesc

theorem turnFormat_ne_ppCmd {turn : Turn} (h : turn ≠ .pp) : turnFormat turn ≠ .ppCmd := by
  cases turn with
  | pp => exact absurd rfl h
  | _ => simp [turnFormat]

/-! ## What the decoders answer -/

theorem formatOf_decodeMmio {offset : BitVec 12} {a : RegAccess} {i : Instr} (h : decodeMmio offset a = .ok i) :
    formatOf i = .mmio := by
  unfold decodeMmio at h
  split at h
  case h_60 =>
    split at h
    · cases h; rfl
    · cases h
  all_goals cases h; rfl

/-- Offset 0 is the one offset of `CTRL` (R20). -/
theorem decodeMmio_ctrl {offset : BitVec 12} {a b : RegAccess} (h : decodeMmio offset a = .ok (.ctrl b)) :
    offset.toNat = 0 ∧ a = b := by
  unfold decodeMmio at h
  split at h
  case h_1 h0 => cases h; exact ⟨h0, rfl⟩
  case h_60 => split at h <;> cases h
  all_goals cases h

theorem formatOf_decodeTxDesc (w0 w1 : Word) : formatOf (decodeTxDesc w0 w1) = .txDesc := by
  unfold decodeTxDesc
  split <;> rfl

theorem formatOf_decodeRxDesc (w0 w1 : Word) : formatOf (decodeRxDesc w0 w1) = .rxDesc := by
  unfold decodeRxDesc
  split <;> rfl

theorem formatOf_decodeMmfr (w : Word) : formatOf (decodeMmfr w) = .mmfr := by
  unfold decodeMmfr
  split
  · rfl
  · split <;> rfl

theorem formatOf_decodePp (w : Word) : formatOf (decodePp w) = .ppCmd := by
  unfold decodePp
  split
  · rfl
  split
  · split <;> rfl
  · split <;> rfl

/-! ## Resets -/

theorem softReset_eq_true {i : Instr} (h : softReset i = true) : ∃ d, i = .ctrl (.write d) ∧ d.getLsbD 31 = true := by
  cases i with
  | ctrl a =>
    cases a with
    | write d => exact ⟨d, rfl, h⟩
    | read => cases h
  | _ => cases h

theorem softReset_eq_false_of_format {i : Instr} (h : formatOf i ≠ .mmio) : softReset i = false := by
  by_contra hr
  obtain ⟨d, rfl, -⟩ := softReset_eq_true (Bool.eq_true_of_not_eq_false hr)
  exact h rfl

/-- The address of the window whose offset is 0 is `BASE`, aligned or not. -/
theorem eq_base_of_offset_zero {pf : Platform} {addr : Word} (hw : inWindow pf addr.toNat = true)
    (ho : ((addr - pf.base).extractLsb' 0 12).toNat = 0) : addr = pf.base := by
  apply BitVec.eq_of_toNat_eq
  simp only [inWindow, Bool.and_eq_true, decide_eq_true_eq, Config.windowSize] at hw
  rw [toNat_extractLsb'_eq, BitVec.toNat_sub] at ho
  have ha := addr.isLt
  have hb := pf.base.isLt
  omega

/-! ## What a turn runs -/

/-- If this runs an operation, then one with the property `P`. -/
def Fetched.RunsOnly (P : Instr → Prop) : Fetched → Prop
  | .run i _ => P i
  | .settled _ | .stop _ | .refuse _ => True

/-- A register access resets only as a 32-bit write to `BASE` with `SRST` (R140). -/
theorem fetchAccess_runsOnly (addr : Word) (width : Width) (a : RegAccess) (s : State) :
    (fetchAccess addr width a s).RunsOnly fun i =>
      formatOf i = .mmio ∧ (softReset i = true →
        width = .w32 ∧ addr = s.platform.base ∧ ∃ d, a = .write d ∧ d.getLsbD 31 = true) := by
  rcases fetchAccess_cases addr width a s with e | ⟨i, hwidth, hw, hi, ⟨f, -, e⟩ | ⟨-, e⟩⟩ <;> rw [e]
  · trivial
  · trivial
  · refine ⟨formatOf_decodeMmio hi, fun hr => ?_⟩
    obtain ⟨d, rfl, hd⟩ := softReset_eq_true hr
    obtain ⟨ho, ha⟩ := decodeMmio_ctrl hi
    exact ⟨hwidth, eq_base_of_offset_zero hw ho, d, ha, hd⟩

theorem hostLoad_runsOnly (P : Instr → Prop) (addr : Word) (width : Width) (s : State) :
    (hostLoad addr width s).RunsOnly P := by
  rcases hostLoad_cases addr width s with ⟨-, e⟩ | ⟨f, -, e⟩ | ⟨-, -, e⟩ <;> rw [e] <;> trivial

theorem hostStoreBytes_runsOnly (P : Instr → Prop) (addr : Word) (bytes : List Byte) (s : State) :
    (hostStoreBytes addr bytes s).RunsOnly P := by
  rcases hostStoreBytes_cases addr bytes s with ⟨-, e⟩ | ⟨f, -, e⟩ | ⟨-, -, e⟩ <;> rw [e] <;> trivial

theorem fetchDesc_runsOnly {P : Instr → Prop} {dec : Word → Word → Instr} (hdec : ∀ w0 w1, P (dec w0 w1)) (d : Word)
    (s : State) : (fetchDesc d dec s).RunsOnly P := by
  rcases fetchDesc_cases d dec s with e | ⟨-, f, -, e⟩ | ⟨-, -, -, e⟩ | ⟨-, -, -, -, e⟩ <;> rw [e]
  · trivial
  · trivial
  · exact hdec _ _
  · exact hdec _ _

theorem Fetched.RunsOnly.mono {P Q : Instr → Prop} {f : Fetched} (h : f.RunsOnly P) (hPQ : ∀ i, P i → Q i) :
    f.RunsOnly Q := by
  cases f with
  | run i s => exact hPQ i h
  | _ => trivial

/-- `i` has the format of the turn's agent, and resets only on a turn that resets. -/
def TurnRuns (pf : Platform) (turn : Turn) (i : Instr) : Prop :=
  formatOf i = turnFormat turn ∧ (softReset i = true → resetTurn pf turn = true)

/-- An operation that is no register access resets nothing. -/
theorem turnRuns_of_format {pf : Platform} {turn : Turn} {i : Instr} (h : formatOf i = turnFormat turn)
    (hm : turnFormat turn ≠ .mmio) : TurnRuns pf turn i :=
  ⟨h, fun hr => by rw [softReset_eq_false_of_format (h ▸ hm)] at hr; cases hr⟩

theorem fetchTurn_runsOnly (turn : Turn) (s : State) :
    (fetchTurn turn s).RunsOnly (TurnRuns s.platform turn) := by
  cases turn with
  | hostRead addr width =>
    simp only [fetchTurn, fetchHostRead]
    split
    · refine (fetchAccess_runsOnly addr width .read s).mono fun i ⟨hf, hr⟩ => ⟨hf, fun h => ?_⟩
      obtain ⟨-, -, d, hd, -⟩ := hr h
      cases hd
    · exact hostLoad_runsOnly _ addr width s
  | hostWrite addr width data =>
    simp only [fetchTurn, fetchHostWrite]
    split
    · refine (fetchAccess_runsOnly addr width (.write data) s).mono fun i ⟨hf, hr⟩ => ⟨hf, fun h => ?_⟩
      obtain ⟨rfl, rfl, d, hd, hbit⟩ := hr h
      cases hd
      simp [resetTurn, hbit]
    · exact hostStoreBytes_runsOnly _ addr _ s
  | hostStore addr bytes =>
    simp only [fetchTurn, fetchHostStore]
    split
    · trivial
    · exact hostStoreBytes_runsOnly _ addr bytes s
  | txdma =>
    simp only [fetchTurn, fetchTx]
    split
    · exact fetchDesc_runsOnly (fun w0 w1 => turnRuns_of_format (formatOf_decodeTxDesc w0 w1) (by decide)) _ s
    · trivial
  | mdio answer => exact turnRuns_of_format (formatOf_decodeMmfr s.mmfr) (by simp [turnFormat])
  | pp =>
    simp only [fetchTurn, fetchPp]
    split
    · trivial
    · exact turnRuns_of_format (formatOf_decodePp s.ppCmd) (by decide)
  | wire frame =>
    simp only [fetchTurn, fetchRx]
    split
    · trivial
    split
    · trivial
    · exact fetchDesc_runsOnly
        (fun w0 w1 => turnRuns_of_format (formatOf_decodeRxDesc w0 w1) (by simp [turnFormat])) _ _
  | reset => trivial

/-- A step ends in the state its turn has settled, or in one that an operation of its agent leaves. -/
theorem step_cons_next {s t : State} {turn : Turn} {rest : List Turn} (hs : s.schedule = turn :: rest)
    (h : step s = .next t) :
    fetchTurn turn { s with schedule := rest } = .settled t ∨
    ∃ i u, fetchTurn turn { s with schedule := rest } = .run i u ∧ TurnRuns s.platform turn i ∧ exec i u = .next t := by
  have hruns := fetchTurn_runsOnly turn { s with schedule := rest }
  rcases step_next h with e | ⟨i, u, e, hi⟩ <;> rw [fetch_cons hs] at e
  · exact .inl e
  · rw [e] at hruns
    exact .inr ⟨i, u, e, hruns, hi⟩

end Sys2Proof.Machine
end

section
/-! What nothing but a reset takes back (R32, R40, R290): the counters only count, an ARP entry in use stays in use, and
the tables belong to the commands. -/

namespace Sys2Proof.Machine

/-! ## Counting -/

theorem get_bump_self (c : Counters) (n : CounterName) : (c.bump n).get n = c.get n + 1#32 := by
  cases n <;> rfl

theorem get_bump_of_ne (c : Counters) {m n : CounterName} (h : n ≠ m) : (c.bump m).get n = c.get n := by
  cases m <;> cases n <;> first | rfl | exact absurd rfl h

/-- After a list of events without repetition, the counters it names are one higher and the others are as before. -/
theorem get_foldl_bump {l : List CounterName} (hl : l.Nodup) (c : Counters) (n : CounterName) :
    (l.foldl Counters.bump c).get n = if n ∈ l then c.get n + 1#32 else c.get n := by
  induction l generalizing c with
  | nil => rfl
  | cons m l ih =>
    obtain ⟨hm, hl⟩ := List.nodup_cons.1 hl
    rw [List.foldl_cons, ih hl]
    by_cases h : n = m
    · subst h
      simp [hm, get_bump_self]
    · simp [h, get_bump_of_ne c h]

/-- From `s` to `t` the events `l` have been counted, and the tables are the same. -/
def Counted (l : List CounterName) (s t : State) : Prop :=
  t.arp = s.arp ∧ t.udpPort = s.udpPort ∧ t.counters = l.foldl Counters.bump s.counters

theorem counted_refl (s : State) : Counted [] s s := ⟨rfl, rfl, rfl⟩

theorem counted_count (n : CounterName) (s : State) : Counted [n] s (count n s) := ⟨rfl, rfl, rfl⟩

theorem Counted.trans {l l' : List CounterName} {s t u : State} (h : Counted l s t) (h' : Counted l' t u) :
    Counted (l ++ l') s u := by
  obtain ⟨harp, hports, hcounters⟩ := h
  obtain ⟨harp', hports', hcounters'⟩ := h'
  exact ⟨harp'.trans harp, hports'.trans hports, by rw [hcounters', hcounters, List.foldl_append]⟩

/-- The tables are the same and each counter has counted at most one event. -/
def OnlyCounts (s t : State) : Prop := ∃ l : List CounterName, l.Nodup ∧ Counted l s t

theorem Counted.onlyCounts {s t : State} (h : Counted [] s t) : OnlyCounts s t := ⟨[], List.nodup_nil, h⟩

theorem Counted.onlyCounts_one {n : CounterName} {s t : State} (h : Counted [n] s t) : OnlyCounts s t :=
  ⟨[n], List.nodup_singleton n, h⟩

theorem OnlyCounts.tables {s t : State} (h : OnlyCounts s t) : t.arp = s.arp ∧ t.udpPort = s.udpPort := by
  obtain ⟨l, -, harp, hports, -⟩ := h
  exact ⟨harp, hports⟩

/-! ## Entries in use -/

/-- An entry of `a` that is not `EMPTY` is not `EMPTY` in `b`. -/
def KeepsEntries (a b : Vector ArpEntry 16) : Prop := ∀ k : Fin 16, a[k].state ≠ .empty → b[k].state ≠ .empty

theorem keepsEntries_refl (a : Vector ArpEntry 16) : KeepsEntries a a := fun _ h => h

/-- Whichever slot is written, it is not written `EMPTY`. -/
theorem keepsEntries_set (a : Vector ArpEntry 16) (i : Fin 16) {e : ArpEntry} (he : e.state ≠ .empty) :
    KeepsEntries a (a.set i e) := by
  intro k hk
  simp only [Fin.getElem_fin, Vector.getElem_set]
  split
  · exact he
  · exact hk

theorem keepsEntries_arpLearn (a : Vector ArpEntry 16) (ip : Word) (mac : Mac) (now : Word) (insert : Bool) :
    KeepsEntries a (arpLearn a ip mac now insert).cache := by
  rcases arpLearn_cases a ip mac now insert with ⟨i, -, e⟩ | ⟨-, -, e⟩ | ⟨-, -, e⟩ <;> rw [e]
  · exact keepsEntries_set a i (by simp)
  · exact keepsEntries_set a _ (by simp)
  · exact keepsEntries_refl a

/-- No entry is emptied, and each counter has counted at most one event. -/
structure Advances (s t : State) : Prop where
  entries : KeepsEntries s.arp t.arp
  counters : ∃ l : List CounterName, l.Nodup ∧ t.counters = l.foldl Counters.bump s.counters

theorem OnlyCounts.advances {s t : State} (h : OnlyCounts s t) : Advances s t := by
  obtain ⟨l, hl, harp, -, hcounters⟩ := h
  exact ⟨by rw [harp]; exact keepsEntries_refl _, l, hl, hcounters⟩

theorem Counted.advances {s t : State} (h : Counted [] s t) : Advances s t := h.onlyCounts.advances

theorem advances_count (n : CounterName) (s : State) : Advances s (count n s) :=
  (counted_count n s).onlyCounts_one.advances

/-- Each counter is as before or one higher modulo 2^32 (R32). -/
theorem Advances.get_counters {s t : State} (h : Advances s t) (n : CounterName) :
    t.counters.get n = s.counters.get n ∨
      (t.counters.get n).toNat = ((s.counters.get n).toNat + 1) % 2 ^ 32 := by
  obtain ⟨l, hl, e⟩ := h.counters
  rw [e, get_foldl_bump hl]
  split
  · exact .inr (BitVec.toNat_add _ _)
  · exact .inl rfl

/-! ## Register accesses and management frames -/

theorem accessReadOnly_counted {v : Word} {a : RegAccess} {s t : State} (h : accessReadOnly v a s = .next t) :
    Counted [] s t := by
  rcases accessReadOnly_cases h with ⟨-, rfl⟩ | ⟨d, -, rfl⟩
  · exact ⟨rfl, rfl, rfl⟩
  · exact counted_refl _

theorem accessGated_counted {v : Word} {ok : Bool} {write : Word → State} {a : RegAccess} {s t : State}
    (h : accessGated v ok write a s = .next t) (hw : ∀ d, a = .write d → Counted [] s (write d)) : Counted [] s t := by
  rcases accessGated_cases h with ⟨-, rfl⟩ | ⟨d, ha, -, rfl⟩ | ⟨d, -, -, rfl⟩
  · exact ⟨rfl, rfl, rfl⟩
  · exact hw d ha
  · exact counted_refl _

theorem writeCtrl_counted {d : Word} (h : d.getLsbD 31 = false) (s : State) : Counted [] s (writeCtrl d s) := by
  unfold writeCtrl
  rw [if_neg (Bool.eq_false_iff.1 h)]
  exact ⟨rfl, rfl, rfl⟩

/-- The counters and the tables are read-only to the host. -/
theorem registerAccess_counted {i : Instr} {s t : State} (hf : formatOf i = .mmio) (hr : softReset i = false)
    (h : exec i s = .next t) : Counted [] s t := by
  cases i with
  | ctrl a => exact accessGated_counted h fun d ha => writeCtrl_counted (by rw [ha] at hr; exact hr) s
  | eir a | eimr a | tdsr a | rdsr a | tdar a | rdar a | rxmax a | maclo a | machi a | mmfr a | ppCmd a | p0 a | p1 a
  | p2 a | p3 a | p4 a | p5 a | p6 a | p7 a | ip4Addr a | ip4Mask a | ip4Gw a | ip4Ttl a | arpSel a =>
    exact accessGated_counted h fun _ _ => ⟨rfl, rfl, rfl⟩
  | status a | tdcur a | rdcur a | cntTxSent a | cntTxErr a | cntRxStored a | cntRxNodesc a | cntRxOversize a
  | cntL2ArpAcc a | cntL2Ip4Acc a | cntL2ArpDrop a | cntL2Ip4Drop a | cntL2OtherDrop a | cntArpBad a | cntIp4Badhdr a
  | cntIp4Badcsum a | cntIp4Baddst a | cntIp4Badproto a | cntIcmpDrop a | cntUdpBadlen a | cntUdpNoport a | ppStatus a
  | arpIp a | arpMaclo a | arpMachi a | arpTs a | udpPort0 a | udpPort1 a | udpPort2 a | udpPort3 a | udpPort4 a
  | udpPort5 a | udpPort6 a | udpPort7 a | reserved _ a =>
    exact accessReadOnly_counted h
  | _ => cases hf

theorem managementFrame_counted {i : Instr} {s t : State} (hf : formatOf i = .mmfr) (h : exec i s = .next t) :
    Counted [] s t := by
  cases i with
  | mdioRead pa ra ta data | mdioWrite pa ra ta data | mmfrNoOperation word =>
    obtain rfl := Host.Outcome.next.inj h
    split <;> exact ⟨rfl, rfl, rfl⟩
  | _ => cases hf

/-! ## Descriptors -/

theorem rxScreen_counted {f : List Byte} {s t : State} (h : rxScreen f s = some t) :
    ∃ n, n ≠ .txSent ∧ Counted [n] s t := by
  rcases rxScreen_cases f s with ⟨-, e⟩ | ⟨-, -, e⟩ | ⟨-, -, e⟩ <;> rw [e] at h <;> cases h
  · exact ⟨.rxNodesc, by decide, counted_count _ s⟩
  · exact ⟨.rxOversize, by decide, counted_count _ s⟩

theorem rxStop_counted (s : State) : Counted [.rxNodesc] s (rxStop s) := ⟨rfl, rfl, rfl⟩

theorem rxStore_counted {f : List Byte} {c : DescCtl} {buf : Word} {s t : State} (h : rxStore f c buf s = some t) :
    Counted [.rxStored] s t := by
  rcases rxStore_cases f c buf s with ⟨-, e⟩ | ⟨-, e⟩ <;> rw [e] at h <;> cases h
  simp [Counted]

/-- A frame received in loopback counts one event of the receive side. -/
theorem loopbackReceive_counted {f : List Byte} {s t : State} (h : loopbackReceive f s = some t) :
    ∃ n, n ≠ .txSent ∧ Counted [n] s t := by
  rcases loopbackReceive_cases f s with ⟨u, hu, e⟩ | ⟨-, -, -, e⟩ | ⟨u, -, -, -, hu, e⟩ | e <;> rw [e] at h <;> cases h
  · exact rxScreen_counted hu
  · exact ⟨.rxNodesc, by decide, rxStop_counted s⟩
  · exact ⟨.rxStored, by decide, rxStore_counted hu⟩

theorem counted_busError (s : State) : Counted [] s (busError s) := ⟨rfl, rfl, rfl⟩

theorem counted_txReject (c : DescCtl) (s : State) : Counted [.txErr] s (txReject c s) := by
  simp [Counted, txReject]

theorem counted_txFinish (c : DescCtl) (s : State) : Counted [.txSent] s (txFinish c s) := by
  simp [Counted, txFinish]

/-- Handing a frame over and completing its descriptor counts `CNT_TX_SENT`, and in loopback one event of the receive
side. -/
theorem txDeliver_txFinish_onlyCounts {f : List Byte} {s t : State} (h : txDeliver f s = some t) (c : DescCtl) :
    OnlyCounts s (txFinish c t) := by
  rcases txDeliver_cases f s with ⟨-, e⟩ | ⟨-, e⟩ <;> rw [e] at h
  · cases h
    exact (Counted.trans (l := []) ⟨rfl, rfl, rfl⟩ (counted_txFinish c _)).onlyCounts_one
  · obtain ⟨n, hn, ht⟩ := loopbackReceive_counted h
    exact ⟨[n, .txSent], by simp [hn], ht.trans (counted_txFinish c t)⟩

theorem onlyCounts_txProcess (c : DescCtl) (buf : Word) (s : State) : OnlyCounts s (txProcess c buf s) := by
  rcases txProcess_cases c buf s with ⟨-, e⟩ | ⟨-, e⟩ | ⟨t, -, -, ht, e⟩ <;> rw [e]
  · exact (counted_txReject c s).onlyCounts_one
  · exact (counted_busError s).onlyCounts
  · exact txDeliver_txFinish_onlyCounts ht c

theorem rxScreen_onlyCounts {f : List Byte} {s t : State} (h : rxScreen f s = some t) : OnlyCounts s t := by
  obtain ⟨n, -, ht⟩ := rxScreen_counted h
  exact ht.onlyCounts_one

theorem txDescriptor_onlyCounts {i : Instr} {s t : State} (hf : formatOf i = .txDesc) (h : exec i s = .next t) :
    OnlyCounts s t := by
  cases i with
  | txd c buf =>
    obtain rfl := Host.Outcome.next.inj h
    split
    · exact onlyCounts_txProcess c buf s
    · exact (counted_refl s).onlyCounts
  | txdStop c =>
    cases h
    exact Counted.onlyCounts ⟨rfl, rfl, rfl⟩
  | _ => cases hf

theorem rxDescriptor_onlyCounts {i : Instr} {s t : State} (hf : formatOf i = .rxDesc) (h : exec i s = .next t) :
    OnlyCounts s t := by
  cases i with
  | rxd c buf =>
    obtain rfl := Host.Outcome.next.inj h
    split
    · exact (counted_refl s).onlyCounts
    split
    · rename_i hu; exact rxScreen_onlyCounts hu
    split
    · rename_i hu; exact (rxStore_counted hu).onlyCounts_one
    · exact (counted_busError s).onlyCounts
  | rxdStop c =>
    obtain rfl := Host.Outcome.next.inj h
    split
    · exact (counted_refl s).onlyCounts
    split
    · rename_i hu; exact rxScreen_onlyCounts hu
    · exact (rxStop_counted s).onlyCounts_one
  | _ => cases hf

/-! ## Classification -/

/-- If an effect finishes, then in a state with the property `P`. -/
def PpEnd.Finishes (P : State → Prop) : PpEnd → Prop
  | .raised _ => True
  | .done _ u => P u

theorem PpEnd.Finishes.mono {P Q : State → Prop} {e : PpEnd} (h : e.Finishes P) (hPQ : ∀ u, P u → Q u) :
    e.Finishes Q := by
  cases e with
  | raised c => trivial
  | done c u => exact hPQ u h

/-- What a stage of `RX_CLASSIFY` after the Layer-2 dispatch may do: count one drop, and learn. -/
structure StageAdvances (s u : State) : Prop where
  entries : KeepsEntries s.arp u.arp
  counters : u.counters = s.counters ∨ ∃ n, dropCounter n = true ∧ u.counters = s.counters.bump n

theorem stageAdvances_drop {n : CounterName} (h : dropCounter n = true) (s : State) : StageAdvances s (count n s) :=
  ⟨keepsEntries_refl _, .inr ⟨n, h, rfl⟩⟩

/-- No Layer-2 counter is a drop counter of a later stage. -/
theorem dropCounter_of_layer2Counter {n : CounterName} (h : layer2Counter n = true) : dropCounter n = false := by
  cases n with
  | l2ArpAcc | l2Ip4Acc | l2ArpDrop | l2Ip4Drop | l2OtherDrop => rfl
  | _ => cases h

/-- The Layer-2 count and the count of a later stage are of different counters. -/
theorem StageAdvances.after_count {m : CounterName} {s u : State} (hm : layer2Counter m = true)
    (h : StageAdvances (count m s) u) : Advances s u := by
  obtain ⟨hentries, hcounters | ⟨n, hn, hcounters⟩⟩ := h
  · exact ⟨hentries, [m], List.nodup_singleton m, hcounters⟩
  · have hne : m ≠ n := by
      rintro rfl
      rw [dropCounter_of_layer2Counter hm] at hn
      cases hn
    exact ⟨hentries, [m, n], by simp [hne], hcounters⟩

theorem icmpStage_finishes (src dst : Word) (l4len : Nat) (s : State) :
    (icmpStage src dst l4len s).Finishes (StageAdvances s) := by
  rcases icmpStage_cases src dst l4len s with ⟨-, e⟩ | ⟨-, -, e⟩ <;> rw [e]
  · exact stageAdvances_drop rfl s
  · exact ⟨keepsEntries_refl _, .inl rfl⟩

theorem udpStage_finishes (src dst : Word) (l4len : Nat) (s : State) :
    (udpStage src dst l4len s).Finishes (StageAdvances s) := by
  rcases udpStage_cases src dst l4len s with ⟨-, e⟩ | ⟨-, -, -, -, e⟩ | ⟨k, -, -, -, -, e⟩ <;> rw [e]
  · exact stageAdvances_drop rfl s
  · exact stageAdvances_drop rfl s
  · exact ⟨keepsEntries_refl _, .inl rfl⟩

theorem arpStage_finishes (now : Word) (s : State) : (arpStage now s).Finishes (StageAdvances s) := by
  rcases arpStage_cases now s with ⟨-, e⟩ | ⟨-, e⟩ <;> rw [e]
  · exact stageAdvances_drop rfl s
  · exact ⟨keepsEntries_arpLearn _ _ _ _ _, .inl rfl⟩

theorem ip4Stage_finishes (len : Nat) (s : State) : (ip4Stage len s).Finishes (StageAdvances s) := by
  rcases ip4Stage_cases len s with e | e | e | e | ⟨-, e⟩ | ⟨-, e⟩ <;> rw [e]
  · exact stageAdvances_drop rfl s
  · exact stageAdvances_drop rfl s
  · exact stageAdvances_drop rfl s
  · exact stageAdvances_drop rfl s
  · exact icmpStage_finishes _ _ _ s
  · exact udpStage_finishes _ _ _ s

theorem l2Stage_finishes (len : Nat) (now : Word) (s : State) : (l2Stage len now s).Finishes (Advances s) := by
  rcases l2Stage_cases len now s with e | e | e | e | ⟨-, -, e⟩ | ⟨-, -, e⟩ <;> rw [e]
  · exact advances_count _ s
  · exact advances_count _ s
  · exact advances_count _ s
  · exact advances_count _ s
  · exact (arpStage_finishes now _).mono fun u => StageAdvances.after_count rfl
  · exact (ip4Stage_finishes len _).mono fun u => StageAdvances.after_count rfl

/-! ## Commands -/

/-- A cache that keeps its entries, with the counters as they were. -/
theorem advances_of_entries {s u : State} (ha : KeepsEntries s.arp u.arp) (hc : u.counters = s.counters) :
    Advances s u := ⟨ha, [], List.nodup_nil, hc⟩

theorem arpResolveEffect_finishes (s : State) : (arpResolveEffect s).Finishes (Advances s) := by
  rcases arpResolveEffect_cases s with ⟨i, -, hi, e⟩ | ⟨i, -, -, e⟩ | ⟨-, e⟩ <;> rw [e]
  · exact advances_of_entries (keepsEntries_set _ i (show s.arp[i].state ≠ .empty by rw [hi]; decide)) rfl
  · exact advances_of_entries (keepsEntries_refl _) rfl
  · exact advances_of_entries (keepsEntries_set _ _ (by simp)) rfl

theorem advances_setPort (k : Nat) (port : Half) (s : State) : Advances s (setPort k port s) :=
  advances_of_entries (by rw [setPort_arp]; exact keepsEntries_refl _) (setPort_counters k port s)

/-- Every command is one `ppComplete` whose effect empties no entry and counts no event twice. -/
theorem exec_ppCommand_finishes (i : Instr) (s : State) (hf : formatOf i = .ppCmd) :
    ∃ check foot len effect, exec i s = ppComplete check foot len effect s ∧ effect.Finishes (Advances s) := by
  cases i with
  | nop | cksum | ethHdr | arpReq | arpReply | ip4Hdr | icmpEchoReq | udpHdr csum | ppIllegal word =>
    exact ⟨_, _, _, _, rfl, Counted.advances (s := s) ⟨rfl, rfl, rfl⟩⟩
  | icmpEchoReply =>
    refine ⟨_, _, _, _, rfl, ?_⟩
    unfold icmpEchoReplyEffect
    split
    · exact Counted.advances (s := s) ⟨rfl, rfl, rfl⟩
    · trivial
  | rxClassify => exact ⟨_, _, _, _, rfl, l2Stage_finishes _ _ s⟩
  | ip4Nexthop =>
    refine ⟨_, _, _, _, rfl, ?_⟩
    unfold ip4NexthopEffect
    split
    · exact Counted.advances (s := s) ⟨rfl, rfl, rfl⟩
    split
    · exact Counted.advances (s := s) ⟨rfl, rfl, rfl⟩
    · trivial
  | arpResolve => exact ⟨_, _, _, _, rfl, arpResolveEffect_finishes s⟩
  | arpUpdate => exact ⟨_, _, _, _, rfl, advances_of_entries (keepsEntries_arpLearn _ _ _ _ _) rfl⟩
  | udpBind => exact ⟨_, _, _, _, rfl, advances_setPort _ _ s⟩
  | udpUnbind => exact ⟨_, _, _, _, rfl, advances_setPort _ _ s⟩
  | _ => cases hf

theorem ppCommand_advances {i : Instr} {s t : State} (hf : formatOf i = .ppCmd) (h : exec i s = .next t) :
    Advances s t := by
  obtain ⟨check, foot, len, effect, e, hfin⟩ := exec_ppCommand_finishes i s hf
  rw [e] at h
  refine ppComplete_keeps h (counted_refl s).advances (fun c u hu => ⟨hu.entries, hu.counters⟩) fun c u _ _ hu => ?_
  rw [hu] at hfin
  exact hfin

/-! ## Operations -/

theorem exec_onlyCounts {i : Instr} {s t : State} (h : exec i s = .next t) (hr : softReset i = false)
    (hf : formatOf i ≠ .ppCmd) : OnlyCounts s t := by
  cases hfi : formatOf i with
  | mmio => exact (registerAccess_counted hfi hr h).onlyCounts
  | txDesc => exact txDescriptor_onlyCounts hfi h
  | rxDesc => exact rxDescriptor_onlyCounts hfi h
  | mmfr => exact (managementFrame_counted hfi h).onlyCounts
  | ppCmd => exact absurd hfi hf

theorem exec_advances {i : Instr} {s t : State} (h : exec i s = .next t) (hr : softReset i = false) :
    Advances s t := by
  by_cases hf : formatOf i = .ppCmd
  · exact ppCommand_advances hf h
  · exact (exec_onlyCounts h hr hf).advances

/-! ## The fetch and the step -/

/-- A turn settled in its fetch may have counted a frame; one that runs an operation has counted nothing. -/
def Fetched.OnlyCounts (s : State) : Fetched → Prop
  | .settled t => Machine.OnlyCounts s t
  | .run _ t => Counted [] s t
  | .stop _ | .refuse _ => True

theorem fetchAccess_onlyCounts (addr : Word) (width : Width) (a : RegAccess) (s : State) :
    (fetchAccess addr width a s).OnlyCounts s := by
  rcases fetchAccess_cases addr width a s with e | ⟨i, -, -, -, ⟨f, -, e⟩ | ⟨-, e⟩⟩ <;> rw [e]
  · trivial
  · trivial
  · exact ⟨rfl, rfl, rfl⟩

theorem hostLoad_onlyCounts (addr : Word) (width : Width) (s : State) : (hostLoad addr width s).OnlyCounts s := by
  rcases hostLoad_cases addr width s with ⟨-, e⟩ | ⟨f, -, e⟩ | ⟨-, -, e⟩ <;> rw [e]
  · trivial
  · trivial
  · exact Counted.onlyCounts ⟨rfl, rfl, rfl⟩

theorem hostStoreBytes_onlyCounts (addr : Word) (bytes : List Byte) (s : State) :
    (hostStoreBytes addr bytes s).OnlyCounts s := by
  rcases hostStoreBytes_cases addr bytes s with ⟨-, e⟩ | ⟨f, -, e⟩ | ⟨-, -, e⟩ <;> rw [e]
  · trivial
  · trivial
  · exact Counted.onlyCounts ⟨rfl, rfl, rfl⟩

theorem fetchDesc_onlyCounts (d : Word) (dec : Word → Word → Instr) (s : State) :
    (fetchDesc d dec s).OnlyCounts s := by
  rcases fetchDesc_cases d dec s with e | ⟨-, f, -, e⟩ | ⟨-, -, -, e⟩ | ⟨-, -, -, -, e⟩ <;> rw [e]
  · exact (counted_busError s).onlyCounts
  · trivial
  · exact counted_refl s
  · exact counted_refl s

theorem fetchTx_onlyCounts (s : State) : (fetchTx s).OnlyCounts s := by
  unfold fetchTx
  split
  · exact fetchDesc_onlyCounts _ _ s
  · exact (counted_refl s).onlyCounts

theorem fetchRx_onlyCounts (s : State) : (fetchRx s).OnlyCounts s := by
  unfold fetchRx
  split
  · exact (counted_refl s).onlyCounts
  split
  · rename_i hu; exact rxScreen_onlyCounts hu
  · exact fetchDesc_onlyCounts _ _ s

theorem fetchPp_onlyCounts (s : State) : (fetchPp s).OnlyCounts s := by
  unfold fetchPp
  split
  · trivial
  · exact ⟨rfl, rfl, rfl⟩

theorem fetchTurn_onlyCounts {turn : Turn} {s : State} (hr : resetTurn s.platform turn = false) :
    (fetchTurn turn s).OnlyCounts s := by
  cases turn with
  | hostRead addr width =>
    simp only [fetchTurn, fetchHostRead]
    split
    · exact fetchAccess_onlyCounts _ _ _ s
    · exact hostLoad_onlyCounts _ _ s
  | hostWrite addr width d =>
    simp only [fetchTurn, fetchHostWrite]
    split
    · exact fetchAccess_onlyCounts _ _ _ s
    · exact hostStoreBytes_onlyCounts _ _ s
  | hostStore addr bytes =>
    simp only [fetchTurn, fetchHostStore]
    split
    · trivial
    · exact hostStoreBytes_onlyCounts _ _ s
  | txdma => exact fetchTx_onlyCounts s
  | mdio answer => exact ⟨rfl, rfl, rfl⟩
  | pp => exact fetchPp_onlyCounts s
  | wire frame => exact fetchRx_onlyCounts { s with wireIn := frame }
  | reset => cases hr

/-- A step on a turn that is no reset has counted in its fetch at most, or runs an operation that is no reset on the
counters and tables as they were. -/
theorem step_counted {s t : State} {turn : Turn} {rest : List Turn} (hs : s.schedule = turn :: rest)
    (h : step s = .next t) (hr : resetTurn s.platform turn = false) :
    OnlyCounts s t ∨
    ∃ i u, formatOf i = turnFormat turn ∧ softReset i = false ∧ Counted [] s u ∧ exec i u = .next t := by
  have hfetch : (fetchTurn turn { s with schedule := rest }).OnlyCounts s := fetchTurn_onlyCounts hr
  rcases step_cons_next hs h with e | ⟨i, u, e, ⟨hf, hreset⟩, hi⟩ <;> rw [e] at hfetch
  · exact .inl hfetch
  · have hi' : softReset i = false := Bool.eq_false_iff.2 fun hri => by rw [hreset hri] at hr; cases hr
    exact .inr ⟨i, u, hf, hi', hfetch, hi⟩

theorem step_onlyCounts {s t : State} {turn : Turn} {rest : List Turn} (hs : s.schedule = turn :: rest)
    (h : step s = .next t) (hr : resetTurn s.platform turn = false) (hp : turn ≠ .pp) : OnlyCounts s t := by
  rcases step_counted hs h hr with ht | ⟨i, u, hf, hi, hu, hexec⟩
  · exact ht
  · obtain ⟨l, hl, ht⟩ := exec_onlyCounts hexec hi (hf ▸ turnFormat_ne_ppCmd hp)
    exact ⟨l, hl, hu.trans ht⟩

theorem step_advances {s t : State} {turn : Turn} {rest : List Turn} (hs : s.schedule = turn :: rest)
    (h : step s = .next t) (hr : resetTurn s.platform turn = false) : Advances s t := by
  rcases step_counted hs h hr with ht | ⟨i, u, -, hi, ⟨harp, -, hcounters⟩, hexec⟩
  · exact ht.advances
  · obtain ⟨hentries, hcount⟩ := exec_advances hexec hi
    rw [harp] at hentries
    rw [hcounters] at hcount
    exact ⟨hentries, hcount⟩

/-- Settles O55: a slot of the cache is only ever written `PENDING` or `RESOLVED`, and by commands only. -/
theorem arpEntriesAreNeverEmptied : Obligations.ArpEntriesAreNeverEmptied := by
  refine ⟨fun i s t h hr => ?_, fun s t turn rest hs h hr => ?_⟩
  · exact ⟨(exec_advances h hr).entries, fun hf => (exec_onlyCounts h hr hf).tables⟩
  · exact ⟨(step_advances hs h hr).entries, fun hp => (step_onlyCounts hs h hr hp).tables⟩

/-- Settles O57: an operation counts events of different counters only. -/
theorem countersOnlyCount : Obligations.CountersOnlyCount := by
  refine ⟨fun i s t h hr n => ?_, fun s t turn rest hs h hr n => ?_⟩
  · exact (exec_advances h hr).get_counters n
  · exact (step_advances hs h hr).get_counters n

end Sys2Proof.Machine
end

section
/-! The register window of the host (R83, R88): what an access to it runs, and what is refused. -/

namespace Sys2Proof.Machine

/-! ## Offsets -/

/-- A register access decodes at every multiple of 4 and nowhere else (R20, R83). -/
theorem decodeMmio_ok_iff (offset : BitVec 12) (a : RegAccess) :
    (∃ i, decodeMmio offset a = .ok i) ↔ offset.toNat % 4 = 0 := by
  unfold decodeMmio
  split
  case h_60 =>
    split
    · rename_i h
      exact iff_of_true ⟨_, rfl⟩ h
    · rename_i h
      exact iff_of_false (by rintro ⟨i, hi⟩; cases hi) h
  all_goals
    rename_i h
    exact iff_of_true ⟨_, rfl⟩ (by rw [h])

/-- A register read gives its value and changes nothing (R88). -/
theorem exec_decoded_read {offset : BitVec 12} {i : Instr} (h : decodeMmio offset .read = .ok i) (s : State) :
    ∃ v, exec i s = .next (readReg v s) := by
  unfold decodeMmio at h
  split at h
  case h_60 =>
    split at h
    · cases h; exact ⟨_, rfl⟩
    · cases h
  all_goals cases h; exact ⟨_, rfl⟩

/-- Settles O22: the offset decodes, and a register read gives a value and no more. -/
theorem registerReadsHaveNoSideEffect : Obligations.RegisterReadsHaveNoSideEffect := by
  intro s offset h
  obtain ⟨i, hi⟩ := (decodeMmio_ok_iff offset .read).2 h
  obtain ⟨v, hv⟩ := exec_decoded_read hi s
  exact ⟨i, v, hi, hv⟩

/-! ## Addresses -/

theorem touchesWindow_iff (pf : Platform) (a : Word) (n : Nat) :
    touchesWindow pf a n = true ↔ ∃ i, i < n ∧ inWindow pf (a.toNat + i) = true := by
  simp [touchesWindow]

theorem inWindow_iff (pf : Platform) (a : Nat) :
    inWindow pf a = true ↔ pf.base.toNat ≤ a ∧ a < pf.base.toNat + 0x1000 := by
  simp [inWindow]

/-- An aligned word with one byte in the window begins in it. -/
theorem inWindow_of_aligned {pf : Platform} {a i : Nat} (hb : pf.base.toNat % 0x1000 = 0) (ha : a % 4 = 0) (hi : i < 4)
    (h : inWindow pf (a + i) = true) : inWindow pf a = true := by
  rw [inWindow_iff] at h ⊢
  omega

/-- The offset of an address has its alignment. -/
theorem offset_mod_four {base : Word} (hb : base.toNat % 0x1000 = 0) (addr : Word) :
    ((addr - base).extractLsb' 0 12).toNat % 4 = addr.toNat % 4 := by
  have ha := addr.isLt
  have hlt := base.isLt
  rw [toNat_extractLsb'_eq, BitVec.toNat_sub]
  omega

/-- An address of the window is `BASE` and its offset. -/
theorem window_address_eq {pf : Platform} {addr : Word} (hw : inWindow pf addr.toNat = true) :
    pf.base + ((addr - pf.base).extractLsb' 0 12).setWidth 32 = addr := by
  rw [inWindow_iff] at hw
  have ha := addr.isLt
  have hlt := pf.base.isLt
  apply BitVec.eq_of_toNat_eq
  rw [BitVec.toNat_add, BitVec.toNat_setWidth, toNat_extractLsb'_eq, BitVec.toNat_sub]
  omega

/-! ## Accesses that stop -/

theorem step_of_stop {s : State} {turn : Turn} {rest : List Turn} {f : Fault} (hs : s.schedule = turn :: rest)
    (hf : fetchTurn turn { s with schedule := rest } = .stop f) : step s = .fault f := by
  simp [step, fetch_cons hs, hf]

theorem step_of_refuse {s : State} {turn : Turn} {rest : List Turn} {r : Refusal} (hs : s.schedule = turn :: rest)
    (hf : fetchTurn turn { s with schedule := rest } = .refuse r) : step s = .refused r := by
  simp [step, fetch_cons hs, hf]

/-- An access that breaks the contract stops (R400, R401, R96). -/
theorem fetchAccess_stop {s : State} {addr : Word} {a : RegAccess} {i : Instr} {f : Fault}
    (hw : inWindow s.platform addr.toNat = true)
    (hi : decodeMmio ((addr - s.platform.base).extractLsb' 0 12) a = .ok i) (hc : accessBreach i s = some f) :
    fetchAccess addr .w32 a s = .stop f := by
  simp [fetchAccess, hw, hi, hc]

/-- A narrow or misaligned access is refused (R83, U5). -/
theorem fetchAccess_refused {s : State} {addr : Word} {width : Width} (hb : s.platform.base.toNat % 0x1000 = 0)
    (h : width ≠ .w32 ∨ addr.toNat % 4 ≠ 0) (a : RegAccess) :
    fetchAccess addr width a s = .refuse .registerAccess := by
  rcases fetchAccess_cases addr width a s with e | ⟨i, hwidth, -, hi, -⟩
  · exact e
  · have halign := (decodeMmio_ok_iff _ a).1 ⟨i, hi⟩
    rw [offset_mod_four hb] at halign
    obtain hne | hne := h
    · exact absurd hwidth hne
    · exact absurd halign hne

/-! ## The step of each access -/

section
variable {s : State} {rest : List Turn} {addr : Word}

theorem step_hostRead_window {i : Instr} (hb : s.platform.base.toNat % 0x1000 = 0)
    (hw : inWindow s.platform addr.toNat = true) (hs : s.schedule = .hostRead addr .w32 :: rest)
    (hi : decodeMmio ((addr - s.platform.base).extractLsb' 0 12) .read = .ok i) :
    step s = exec i { s with schedule := rest } := by
  rw [← window_address_eq hw] at hs
  exact step_hostRead_register hb hs ((decode_encodeMmio _ _).trans hi)

theorem step_hostWrite_window {d : Word} {i : Instr} (hb : s.platform.base.toNat % 0x1000 = 0)
    (hw : inWindow s.platform addr.toNat = true) (hs : s.schedule = .hostWrite addr .w32 d :: rest)
    (hi : decodeMmio ((addr - s.platform.base).extractLsb' 0 12) (.write d) = .ok i) (hc : accessBreach i s = none) :
    step s = exec i { s with schedule := rest, handed := handedAfterAccess i s } := by
  rw [← window_address_eq hw] at hs
  exact step_hostWrite_register hb hs ((decode_encodeMmio _ _).trans hi) hc

theorem step_hostWrite_breach {d : Word} {i : Instr} {f : Fault} (hw : inWindow s.platform addr.toNat = true)
    (hs : s.schedule = .hostWrite addr .w32 d :: rest)
    (hi : decodeMmio ((addr - s.platform.base).extractLsb' 0 12) (.write d) = .ok i) (hc : accessBreach i s = some f) :
    step s = .fault f := by
  refine step_of_stop hs ((if_pos (touchesWindow_of_inWindow (by decide) hw)).trans ?_)
  exact fetchAccess_stop (s := { s with schedule := rest }) hw hi ((accessBreach_schedule i s rest).trans hc)

theorem step_hostRead_refused {width : Width} (hb : s.platform.base.toNat % 0x1000 = 0)
    (ht : touchesWindow s.platform addr width.bytes = true) (h : width ≠ .w32 ∨ addr.toNat % 4 ≠ 0)
    (hs : s.schedule = .hostRead addr width :: rest) : step s = .refused .registerAccess := by
  refine step_of_refuse hs ((if_pos ht).trans ?_)
  exact fetchAccess_refused (s := { s with schedule := rest }) hb h _

theorem step_hostWrite_refused {width : Width} {d : Word} (hb : s.platform.base.toNat % 0x1000 = 0)
    (ht : touchesWindow s.platform addr width.bytes = true) (h : width ≠ .w32 ∨ addr.toNat % 4 ≠ 0)
    (hs : s.schedule = .hostWrite addr width d :: rest) : step s = .refused .registerAccess := by
  refine step_of_refuse hs ((if_pos ht).trans ?_)
  exact fetchAccess_refused (s := { s with schedule := rest }) hb h _

/-- No byte-list store is a register access (R83). -/
theorem step_hostStore_refused {bytes : List Byte} (ht : touchesWindow s.platform addr bytes.length = true)
    (hs : s.schedule = .hostStore addr bytes :: rest) : step s = .refused .registerAccess :=
  step_of_refuse hs (if_pos ht)

end

/-- Settles O25: an aligned word begins in the window and its offset decodes; no other access has an offset that does. -/
theorem windowAdmitsOnlyAlignedWords : Obligations.WindowAdmitsOnlyAlignedWords := by
  intro s rest addr d width bytes hb
  refine ⟨fun ht => step_hostStore_refused ((touchesWindow_iff _ _ _).2 ht), fun ht => ⟨?_, fun h => ?_⟩⟩
  · rintro rfl halign
    obtain ⟨k, hk, hin⟩ := ht
    have hw := inWindow_of_aligned hb halign hk hin
    have hdec := fun a => (decodeMmio_ok_iff _ a).2 ((offset_mod_four hb addr).trans halign)
    refine ⟨fun hs => ?_, fun hs => ?_⟩
    · obtain ⟨i, hi⟩ := hdec .read
      exact ⟨i, hi, step_hostRead_window hb hw hs hi⟩
    · obtain ⟨i, hi⟩ := hdec (.write d)
      exact ⟨i, hi, step_hostWrite_window hb hw hs hi, fun f => step_hostWrite_breach hw hs hi⟩
  · have ht := (touchesWindow_iff _ _ _).2 ht
    exact ⟨step_hostRead_refused hb ht h, step_hostWrite_refused hb ht h⟩

end Sys2Proof.Machine
end

section
/-! Where the block writes memory (R82): a command inside its footprint, an engine in the descriptor at its pointer and in
the buffer that names, and all of it inside `DmaWindow`. -/

namespace Sys2Proof.Machine

/-! ## Admission -/

theorem inDmaWindow_of_allInDmaWindow {pf : Platform} {a n i : Nat} (h : allInDmaWindow pf a n = true) (hi : i < n) :
    inDmaWindow pf (a + i) = true := by
  induction n generalizing a i with
  | zero => omega
  | succ n ih =>
    obtain ⟨hfirst, hrest⟩ := Bool.and_eq_true_iff.1 h
    cases i with
    | zero => exact hfirst
    | succ i =>
      rw [show a + (i + 1) = a + 1 + i by omega]
      exact ih hrest (by omega)

/-- Every byte of an admitted range lies in `DmaWindow` (R82). -/
theorem inDmaWindow_of_admitted {pf : Platform} {a : Word} {n i : Nat} (h : admitted pf a n = true) (hi : i < n) :
    inDmaWindow pf (a + BitVec.ofNat 32 i).toNat = true := by
  simp only [admitted, Bool.or_eq_true, beq_iff_eq, Bool.and_eq_true, decide_eq_true_eq] at h
  obtain h0 | ⟨hwrap, hall⟩ := h
  · omega
  · have hnat : (a + BitVec.ofNat 32 i).toNat = a.toNat + i := by
      rw [BitVec.toNat_add, BitVec.toNat_ofNat]
      omega
    rw [hnat]
    exact inDmaWindow_of_allInDmaWindow hall hi

/-! ## The bytes a store may change -/

theorem sameOutside_refl (m : Memory) (a : Word) (n : Nat) : sameOutside m m a n := fun _ _ => rfl

theorem sameOutside_of_eq {m m' : Memory} (h : m' = m) (a : Word) (n : Nat) : sameOutside m m' a n := by
  rw [h]
  exact sameOutside_refl m a n

/-- A longer range may change as well. -/
theorem sameOutside_mono {m m' : Memory} {a : Word} {n k : Nat} (h : sameOutside m m' a n) (hk : n ≤ k) :
    sameOutside m m' a k := fun x hx => h x fun i hi => hx i (by omega)

/-- A store inside the range that may change already. -/
theorem sameOutside_storeBytes {m m' : Memory} {a : Word} {n : Nat} (h : sameOutside m m' a n) (b : Word)
    (bs : List Byte) (hb : (b - a).toNat + bs.length ≤ n) : sameOutside m (storeBytes m' b bs) a n := by
  intro x hx
  rw [loadByte_storeBytes_ne, h x hx]
  intro j hj
  have hplace : b + BitVec.ofNat 32 j = a + BitVec.ofNat 32 ((b - a).toNat + j) := by
    rw [BitVec.ofNat_add, BitVec.ofNat_toNat, BitVec.setWidth_eq, ← add_assoc, add_sub_cancel]
  rw [hplace]
  exact hx _ (by omega)

section
variable {m m' : Memory} {a b : Word} {n : Nat} (h : sameOutside m m' a n)
include h

theorem sameOutside_put8 {v : Byte} (hb : (b - a).toNat + 1 ≤ n) : sameOutside m (put8 b v m') a n :=
  sameOutside_storeBytes h b _ hb

theorem sameOutside_putBe16 {v : Half} (hb : (b - a).toNat + 2 ≤ n) : sameOutside m (putBe16 b v m') a n :=
  sameOutside_storeBytes h b _ hb

theorem sameOutside_putBe32 {v : Word} (hb : (b - a).toNat + 4 ≤ n) : sameOutside m (putBe32 b v m') a n :=
  sameOutside_storeBytes h b _ hb

theorem sameOutside_putMac {v : Mac} (hb : (b - a).toNat + 6 ≤ n) : sameOutside m (putMac b v m') a n :=
  sameOutside_storeBytes h b _ hb

theorem sameOutside_putCksum {c : Word} {k : Nat} (hb : (b - a).toNat + 2 ≤ n) :
    sameOutside m (putCksum b c k m') a n :=
  sameOutside_putBe16 h hb

end

/-! ## What each command writes (R226 to R232) -/

theorem sameOutside_putEthHdr (f : Word) (dst src : Mac) (etherType : Half) (m : Memory) :
    sameOutside m (putEthHdr f dst src etherType m) f 14 := by
  unfold putEthHdr
  refine sameOutside_putBe16 (sameOutside_putMac (sameOutside_putMac (sameOutside_refl m f 14) ?_) ?_) ?_ <;> simp

theorem sameOutside_putArpFrame (s : State) (dst : Mac) (oper : Half) (tha : Mac) (tpa : Word) (m : Memory) :
    sameOutside m (putArpFrame s dst oper tha tpa m) (frameBase s) 42 := by
  unfold putArpFrame
  refine sameOutside_putBe32 (sameOutside_putMac (sameOutside_putBe32 (sameOutside_putMac (sameOutside_putBe16
    (sameOutside_put8 (sameOutside_put8 (sameOutside_putBe16 (sameOutside_putBe16
      (sameOutside_mono (sameOutside_putEthHdr _ _ _ _ m) (by decide)) ?_) ?_) ?_) ?_) ?_) ?_) ?_) ?_) ?_ <;> simp

theorem sameOutside_putIp4Hdr (s : State) (m : Memory) :
    sameOutside m (putIp4Hdr s m) (frameBase s + 14#32) 20 := by
  unfold putIp4Hdr
  refine sameOutside_putBe32 (sameOutside_putBe32 (sameOutside_putBe16 (sameOutside_put8 (sameOutside_put8
    (sameOutside_putBe16 (sameOutside_putBe16 (sameOutside_putBe16 (sameOutside_put8 (sameOutside_put8
      (sameOutside_refl m _ 20) ?_) ?_) ?_) ?_) ?_) ?_) ?_) ?_) ?_) ?_ <;> simp

theorem sameOutside_putUdpHdr (s : State) (m : Memory) :
    sameOutside m (putUdpHdr s m) (frameBase s + 34#32) 8 := by
  unfold putUdpHdr
  refine sameOutside_putBe16 (sameOutside_putBe16 (sameOutside_putBe16 (sameOutside_putBe16
    (sameOutside_refl m _ 8) ?_) ?_) ?_) ?_ <;> simp

theorem sameOutside_putEchoReply (s : State) : sameOutside s.mem (putEchoReply s) (frameBase s) 38 := by
  unfold putEchoReply
  refine sameOutside_putCksum (sameOutside_putBe16 (sameOutside_put8 (sameOutside_putCksum (sameOutside_putBe16
    (sameOutside_putBe32 (sameOutside_putBe32 (sameOutside_put8 (sameOutside_putMac (sameOutside_putMac
      (sameOutside_refl s.mem _ 38) ?_) ?_) ?_) ?_) ?_) ?_) ?_) ?_) ?_) ?_ <;> simp

/-- If the effect finishes, memory has changed in the footprint only. -/
def PpEnd.WritesFootprint (s : State) (foot : Word) (len : Nat) (e : PpEnd) : Prop :=
  e.Finishes fun u => sameOutside s.mem u.mem foot len

/-- The shape of every command that writes memory: a new memory and new operands. -/
theorem writesFootprint_done {s : State} {m : Memory} {foot : Word} {len : Nat} (h : sameOutside s.mem m foot len)
    (c : PpResult) (p : PRegs) : (PpEnd.done c { s with mem := m, p := p }).WritesFootprint s foot len := h

theorem ethHdrEffect_writesFootprint (s : State) : (ethHdrEffect s).WritesFootprint s (frameBase s) 14 := by
  unfold ethHdrEffect
  exact writesFootprint_done (sameOutside_putEthHdr _ _ _ _ s.mem) _ _

theorem arpReqEffect_writesFootprint (s : State) : (arpReqEffect s).WritesFootprint s (frameBase s) 42 := by
  unfold arpReqEffect
  exact writesFootprint_done (sameOutside_putArpFrame s _ _ _ _ s.mem) _ _

theorem arpReplyEffect_writesFootprint (s : State) : (arpReplyEffect s).WritesFootprint s (frameBase s) 42 := by
  unfold arpReplyEffect
  exact writesFootprint_done (sameOutside_putArpFrame s _ _ _ _ s.mem) _ _

theorem ip4HdrEffect_writesFootprint (s : State) :
    (ip4HdrEffect s).WritesFootprint s (frameBase s + 14#32) 20 := by
  unfold ip4HdrEffect
  exact writesFootprint_done (sameOutside_putCksum (sameOutside_putIp4Hdr s s.mem) (by simp)) _ _

theorem icmpEchoReqEffect_writesFootprint (s : State) :
    (icmpEchoReqEffect s).WritesFootprint s (frameBase s + 34#32) (icmpEchoReqLen s) := by
  unfold icmpEchoReqEffect
  refine writesFootprint_done (sameOutside_mono (n := 8) ?_ (by simp [icmpEchoReqLen])) _ _
  refine sameOutside_putCksum (sameOutside_putBe16 (sameOutside_putBe16 (sameOutside_putBe16
    (sameOutside_put8 (sameOutside_put8 (sameOutside_refl s.mem _ 8) ?_) ?_) ?_) ?_) ?_) ?_ <;> simp

/-- The frame is long enough for the fields that are rewritten, or the operand check fails (R231). -/
theorem icmpEchoReplyEffect_writesFootprint {s : State} (h : icmpEchoReplyCheck s = none) :
    (icmpEchoReplyEffect s).WritesFootprint s (frameBase s) (icmpEchoReplyLen s) := by
  have hlen : 38 ≤ icmpEchoReplyLen s := by
    simp only [icmpEchoReplyCheck, badArgIf, Bool.or_eq_true, decide_eq_true_eq, ite_eq_right_iff, reduceCtorEq,
      imp_false, not_or] at h
    unfold icmpEchoReplyLen
    omega
  unfold icmpEchoReplyEffect
  split
  · exact writesFootprint_done (sameOutside_mono (sameOutside_putEchoReply s) hlen) _ _
  · trivial

theorem udpHdrEffect_writesFootprint (csum : Bool) (s : State) :
    (udpHdrEffect csum s).WritesFootprint s (frameBase s + 34#32) (udpHdrLen csum s) := by
  unfold udpHdrEffect
  refine writesFootprint_done (sameOutside_mono (n := 8) ?_ (by simp [udpHdrLen])) _ _
  split
  · exact sameOutside_putBe16 (sameOutside_putUdpHdr s s.mem) (by simp)
  · exact sameOutside_putUdpHdr s s.mem

/-! ## What the other commands leave alone: memory -/

/-- If the effect finishes, memory is as it was in `s`. -/
def PpEnd.KeepsMemory (s : State) (e : PpEnd) : Prop := e.Finishes fun u => u.mem = s.mem

theorem icmpStage_keepsMemory (src dst : Word) (l4len : Nat) (s : State) :
    (icmpStage src dst l4len s).KeepsMemory s := by
  rcases icmpStage_cases src dst l4len s with ⟨-, e⟩ | ⟨-, -, e⟩ <;> rw [e] <;> rfl

theorem udpStage_keepsMemory (src dst : Word) (l4len : Nat) (s : State) : (udpStage src dst l4len s).KeepsMemory s := by
  rcases udpStage_cases src dst l4len s with ⟨-, e⟩ | ⟨-, -, -, -, e⟩ | ⟨k, -, -, -, -, e⟩ <;> rw [e] <;> rfl

theorem arpStage_keepsMemory (now : Word) (s : State) : (arpStage now s).KeepsMemory s := by
  rcases arpStage_cases now s with ⟨-, e⟩ | ⟨-, e⟩ <;> rw [e] <;> rfl

theorem ip4Stage_keepsMemory (len : Nat) (s : State) : (ip4Stage len s).KeepsMemory s := by
  rcases ip4Stage_cases len s with e | e | e | e | ⟨-, e⟩ | ⟨-, e⟩ <;> rw [e]
  · rfl
  · rfl
  · rfl
  · rfl
  · exact icmpStage_keepsMemory _ _ _ s
  · exact udpStage_keepsMemory _ _ _ s

/-- `RX_CLASSIFY` reads the frame and writes no memory (R260). -/
theorem l2Stage_keepsMemory (len : Nat) (now : Word) (s : State) : (l2Stage len now s).KeepsMemory s := by
  rcases l2Stage_cases len now s with e | e | e | e | ⟨-, -, e⟩ | ⟨-, -, e⟩ <;> rw [e]
  · rfl
  · rfl
  · rfl
  · rfl
  · exact arpStage_keepsMemory now (count .l2ArpAcc s)
  · exact ip4Stage_keepsMemory len (count .l2Ip4Acc s)

theorem arpResolveEffect_keepsMemory (s : State) : (arpResolveEffect s).KeepsMemory s := by
  rcases arpResolveEffect_cases s with ⟨i, -, -, e⟩ | ⟨i, -, -, e⟩ | ⟨-, e⟩ <;> rw [e] <;> rfl

theorem ip4NexthopEffect_keepsMemory (s : State) : (ip4NexthopEffect s).KeepsMemory s := by
  unfold ip4NexthopEffect
  split
  · rfl
  split
  · rfl
  · trivial

theorem PpEnd.KeepsMemory.writesFootprint {s : State} {e : PpEnd} (h : e.KeepsMemory s) (foot : Word) (len : Nat) :
    e.WritesFootprint s foot len := Finishes.mono h fun _ hu => sameOutside_of_eq hu foot len

/-- Every command is one `ppComplete` that writes memory in its footprint only (R222). -/
theorem exec_ppCommand_writesFootprint (i : Instr) (s : State) (hf : formatOf i = .ppCmd) :
    ∃ check foot len effect, exec i s = ppComplete check foot len effect s ∧
      (check = none → effect.WritesFootprint s foot len) := by
  cases i with
  | nop | ppIllegal word => exact ⟨_, _, _, _, rfl, fun _ => sameOutside_refl s.mem _ _⟩
  | cksum => exact ⟨_, _, _, _, rfl, fun _ => sameOutside_refl s.mem _ _⟩
  | ethHdr => exact ⟨_, _, _, _, rfl, fun _ => ethHdrEffect_writesFootprint s⟩
  | arpReq => exact ⟨_, _, _, _, rfl, fun _ => arpReqEffect_writesFootprint s⟩
  | arpReply => exact ⟨_, _, _, _, rfl, fun _ => arpReplyEffect_writesFootprint s⟩
  | ip4Hdr => exact ⟨_, _, _, _, rfl, fun _ => ip4HdrEffect_writesFootprint s⟩
  | icmpEchoReq => exact ⟨_, _, _, _, rfl, fun _ => icmpEchoReqEffect_writesFootprint s⟩
  | icmpEchoReply => exact ⟨_, _, _, _, rfl, icmpEchoReplyEffect_writesFootprint⟩
  | udpHdr csum => exact ⟨_, _, _, _, rfl, fun _ => udpHdrEffect_writesFootprint csum s⟩
  | rxClassify => exact ⟨_, _, _, _, rfl, fun _ => (l2Stage_keepsMemory _ _ s).writesFootprint _ _⟩
  | ip4Nexthop => exact ⟨_, _, _, _, rfl, fun _ => (ip4NexthopEffect_keepsMemory s).writesFootprint _ _⟩
  | arpResolve => exact ⟨_, _, _, _, rfl, fun _ => (arpResolveEffect_keepsMemory s).writesFootprint _ _⟩
  | arpUpdate => exact ⟨_, _, _, _, rfl, fun _ => sameOutside_refl s.mem _ _⟩
  | udpBind | udpUnbind => exact ⟨_, _, _, _, rfl, fun _ => sameOutside_of_eq (setPort_mem _ _ s) _ _⟩
  | _ => cases hf

end Sys2Proof.Machine
end

section
/-! Whatever the turn of the block, memory changes only inside `DmaWindow` (R82, R222, R353). -/

namespace Sys2Proof.Machine

/-- Every byte that differs between `s` and `t` lies in `DmaWindow`. -/
def WritesInDmaWindow (s t : State) : Prop :=
  ∀ x : Nat, loadByte t.mem x ≠ loadByte s.mem x → inDmaWindow s.platform x = true

theorem writesInDmaWindow_of_mem_eq {s t : State} (h : t.mem = s.mem) : WritesInDmaWindow s t :=
  fun x hx => absurd (by rw [h]) hx

theorem WritesInDmaWindow.trans {s t u : State} (h : WritesInDmaWindow s t) (hp : t.platform = s.platform)
    (h' : WritesInDmaWindow t u) : WritesInDmaWindow s u := by
  intro x hx
  by_cases ht : loadByte t.mem x = loadByte s.mem x
  · rw [← hp]
    exact h' x (by rwa [ht])
  · exact h x ht

/-- What changes in an admitted range only, changes in `DmaWindow` only. -/
theorem writesInDmaWindow_of_sameOutside {s t : State} {a : Word} {n : Nat} (ha : admitted s.platform a n = true)
    (h : sameOutside s.mem t.mem a n) : WritesInDmaWindow s t := by
  intro x hx
  by_contra hout
  refine hx (h x fun i hi e => hout ?_)
  rw [e]
  exact inDmaWindow_of_admitted ha hi

/-- A descriptor's word 0 is written back where it was admitted. -/
theorem writesInDmaWindow_of_store32 {s t : State} {a w : Word} (ha : admitted s.platform a 4 = true)
    (h : t.mem = store32 s.mem a w) : WritesInDmaWindow s t := by
  refine writesInDmaWindow_of_sameOutside ha ?_
  rw [h]
  exact fun x hx => loadByte_storeBytes_ne s.mem a (leBytes4 w) x hx

/-! ## Operations -/

theorem managementFrame_mem {i : Instr} {s t : State} (hf : formatOf i = .mmfr) (h : exec i s = .next t) :
    t.mem = s.mem := by
  cases i with
  | mdioRead pa ra ta data | mdioWrite pa ra ta data | mmfrNoOperation word =>
    obtain rfl := Host.Outcome.next.inj h
    split <;> rfl
  | _ => cases hf

/-- A command writes in its footprint, which has been admitted (R222). -/
theorem ppCommand_writesInDmaWindow {i : Instr} {s t : State} (hf : formatOf i = .ppCmd) (h : exec i s = .next t) :
    WritesInDmaWindow s t := by
  obtain ⟨check, foot, len, effect, e, hfoot⟩ := exec_ppCommand_writesFootprint i s hf
  rw [e] at h
  refine ppComplete_keeps h (writesInDmaWindow_of_mem_eq rfl) (fun c u hu => hu) fun c u hcheck hadm hu => ?_
  have hdone := hfoot hcheck
  rw [hu] at hdone
  exact writesInDmaWindow_of_sameOutside hadm hdone

theorem rxScreen_mem {f : List Byte} {s t : State} (h : rxScreen f s = some t) : t.mem = s.mem := by
  rcases rxScreen_cases f s with ⟨-, e⟩ | ⟨-, -, e⟩ | ⟨-, -, e⟩ <;> rw [e] at h <;> cases h <;> rfl

/-- A frame is stored in the admitted buffer, and its length in the descriptor at `RDCUR` (R208, R211). -/
theorem rxStore_writesInDmaWindow {f : List Byte} {c : DescCtl} {buf : Word} {s t : State}
    (hd : admitted s.platform s.rdcur 4 = true) (h : rxStore f c buf s = some t) : WritesInDmaWindow s t := by
  rcases rxStore_cases f c buf s with ⟨-, e⟩ | ⟨hbuf, e⟩ <;> rw [e] at h <;> cases h
  have hframe : WritesInDmaWindow s { s with mem := storeBytes s.mem buf f } :=
    writesInDmaWindow_of_sameOutside hbuf fun x hx => loadByte_storeBytes_ne s.mem buf f x hx
  exact hframe.trans rfl (writesInDmaWindow_of_store32 hd rfl)

theorem loopbackReceive_writesInDmaWindow {f : List Byte} {s t : State} (h : loopbackReceive f s = some t) :
    WritesInDmaWindow s t := by
  rcases loopbackReceive_cases f s with ⟨u, hu, e⟩ | ⟨-, -, -, e⟩ | ⟨u, -, hd, -, hu, e⟩ | e <;> rw [e] at h <;> cases h
  · exact writesInDmaWindow_of_mem_eq (rxScreen_mem hu)
  · exact writesInDmaWindow_of_mem_eq rfl
  · exact rxStore_writesInDmaWindow hd hu

theorem rxScreen_tdcur {f : List Byte} {s t : State} (h : rxScreen f s = some t) : t.tdcur = s.tdcur := by
  rcases rxScreen_cases f s with ⟨-, e⟩ | ⟨-, -, e⟩ | ⟨-, -, e⟩ <;> rw [e] at h <;> cases h <;> rfl

theorem rxStore_tdcur {f : List Byte} {c : DescCtl} {buf : Word} {s t : State} (h : rxStore f c buf s = some t) :
    t.tdcur = s.tdcur := by
  rcases rxStore_cases f c buf s with ⟨-, e⟩ | ⟨-, e⟩ <;> rw [e] at h <;> cases h
  simp

/-- The receive side does not move the Tx ring (R196). -/
theorem loopbackReceive_tdcur {f : List Byte} {s t : State} (h : loopbackReceive f s = some t) : t.tdcur = s.tdcur := by
  rcases loopbackReceive_cases f s with ⟨u, hu, e⟩ | ⟨-, -, -, e⟩ | ⟨u, -, -, -, hu, e⟩ | e <;> rw [e] at h <;> cases h
  · exact rxScreen_tdcur hu
  · rfl
  · exact rxStore_tdcur hu

theorem txDeliver_writesInDmaWindow {f : List Byte} {s t : State} (h : txDeliver f s = some t) :
    WritesInDmaWindow s t ∧ t.tdcur = s.tdcur := by
  rcases txDeliver_cases f s with ⟨-, e⟩ | ⟨-, e⟩ <;> rw [e] at h
  · cases h
    exact ⟨writesInDmaWindow_of_mem_eq rfl, rfl⟩
  · exact ⟨loopbackReceive_writesInDmaWindow h, loopbackReceive_tdcur h⟩

/-- The step of TXDMA writes the descriptor at `TDCUR`, and in loopback what the receive side writes. -/
theorem txProcess_writesInDmaWindow {s : State} (hd : admitted s.platform s.tdcur 4 = true) (c : DescCtl) (buf : Word) :
    WritesInDmaWindow s (txProcess c buf s) := by
  rcases txProcess_cases c buf s with ⟨-, e⟩ | ⟨-, e⟩ | ⟨t, -, -, ht, e⟩ <;> rw [e]
  · exact writesInDmaWindow_of_store32 hd rfl
  · exact writesInDmaWindow_of_mem_eq rfl
  · obtain ⟨hwrites, htdcur⟩ := txDeliver_writesInDmaWindow ht
    obtain ⟨hplatform, -⟩ := txDeliver_keepsContext ht
    refine hwrites.trans hplatform (writesInDmaWindow_of_store32 (a := t.tdcur) ?_ rfl)
    rw [hplatform, htdcur]
    exact hd

theorem txDescriptor_writesInDmaWindow {i : Instr} {s t : State} (hf : formatOf i = .txDesc)
    (hd : admitted s.platform s.tdcur 4 = true) (h : exec i s = .next t) : WritesInDmaWindow s t := by
  cases i with
  | txd c buf =>
    obtain rfl := Host.Outcome.next.inj h
    split
    · exact txProcess_writesInDmaWindow hd c buf
    · exact writesInDmaWindow_of_mem_eq rfl
  | txdStop c =>
    cases h
    exact writesInDmaWindow_of_mem_eq rfl
  | _ => cases hf

theorem rxDescriptor_writesInDmaWindow {i : Instr} {s t : State} (hf : formatOf i = .rxDesc)
    (hd : admitted s.platform s.rdcur 4 = true) (h : exec i s = .next t) : WritesInDmaWindow s t := by
  cases i with
  | rxd c buf =>
    obtain rfl := Host.Outcome.next.inj h
    split
    · exact writesInDmaWindow_of_mem_eq rfl
    split
    · rename_i hu; exact writesInDmaWindow_of_mem_eq (rxScreen_mem hu)
    split
    · rename_i hu; exact rxStore_writesInDmaWindow hd hu
    · exact writesInDmaWindow_of_mem_eq rfl
  | rxdStop c =>
    obtain rfl := Host.Outcome.next.inj h
    split
    · exact writesInDmaWindow_of_mem_eq rfl
    split
    · rename_i hu; exact writesInDmaWindow_of_mem_eq (rxScreen_mem hu)
    · exact writesInDmaWindow_of_mem_eq rfl
  | _ => cases hf

/-! ## The fetch and the step -/

/-- Every state the turn ends in, at its fetch or after its operation, has the property `P`. -/
def Fetched.EndsIn (P : State → Prop) : Fetched → Prop
  | .settled t => P t
  | .run i u => ∀ t, exec i u = .next t → P t
  | .stop _ | .refuse _ => True

theorem step_endsIn {P : State → Prop} {s t : State} {turn : Turn} {rest : List Turn} (hs : s.schedule = turn :: rest)
    (hP : (fetchTurn turn { s with schedule := rest }).EndsIn P) (h : step s = .next t) : P t := by
  rcases step_next h with e | ⟨i, u, e, hi⟩ <;> rw [fetch_cons hs] at e <;> rw [e] at hP
  · exact hP
  · exact hP t hi

theorem fetchDesc_endsIn {d : Word} {dec : Word → Word → Instr} {s : State}
    (hrun : ∀ w0 w1 t, admitted s.platform d 4 = true → exec (dec w0 w1) s = .next t → WritesInDmaWindow s t) :
    (fetchDesc d dec s).EndsIn (WritesInDmaWindow s) := by
  rcases fetchDesc_cases d dec s with e | ⟨-, f, -, e⟩ | ⟨hd, -, -, e⟩ | ⟨hd, -, -, -, e⟩ <;> rw [e]
  · exact writesInDmaWindow_of_mem_eq rfl
  · trivial
  · exact fun t => hrun _ _ t hd
  · exact fun t => hrun _ _ t hd

theorem fetchTx_endsIn (s : State) : (fetchTx s).EndsIn (WritesInDmaWindow s) := by
  unfold fetchTx
  split
  · exact fetchDesc_endsIn fun w0 w1 t hd => txDescriptor_writesInDmaWindow (formatOf_decodeTxDesc w0 w1) hd
  · exact writesInDmaWindow_of_mem_eq rfl

theorem fetchRx_endsIn (s : State) : (fetchRx s).EndsIn (WritesInDmaWindow s) := by
  unfold fetchRx
  split
  · exact writesInDmaWindow_of_mem_eq rfl
  split
  · rename_i hu; exact writesInDmaWindow_of_mem_eq (rxScreen_mem hu)
  · exact fetchDesc_endsIn fun w0 w1 t hd => rxDescriptor_writesInDmaWindow (formatOf_decodeRxDesc w0 w1) hd

theorem fetchMdio_endsIn (s : State) : (fetchMdio s).EndsIn (WritesInDmaWindow s) :=
  fun _ h => writesInDmaWindow_of_mem_eq (managementFrame_mem (formatOf_decodeMmfr s.mmfr) h)

theorem fetchPp_endsIn (s : State) : (fetchPp s).EndsIn (WritesInDmaWindow s) := by
  unfold fetchPp
  split
  · trivial
  · exact fun t => ppCommand_writesInDmaWindow (s := { s with handed := handedAfterPp s }) (formatOf_decodePp s.ppCmd)

/-- A host read changes no memory, whichever side of the window it falls on. -/
theorem fetchHostRead_endsIn (addr : Word) (width : Width) (s : State) :
    (fetchHostRead addr width s).EndsIn (WritesInDmaWindow s) := by
  unfold fetchHostRead
  split
  · rcases fetchAccess_cases addr width .read s with e | ⟨i, -, -, hi, ⟨f, -, e⟩ | ⟨-, e⟩⟩ <;> rw [e]
    · trivial
    · trivial
    · intro t h
      obtain ⟨v, hv⟩ := exec_decoded_read hi { s with handed := handedAfterAccess i s }
      rw [hv] at h
      cases h
      exact writesInDmaWindow_of_mem_eq rfl
  · rcases hostLoad_cases addr width s with ⟨-, e⟩ | ⟨f, -, e⟩ | ⟨-, -, e⟩ <;> rw [e]
    · trivial
    · trivial
    · exact writesInDmaWindow_of_mem_eq rfl

/-- Settles O59, agent by agent: what the agent's fetch has admitted is all that its operation writes. -/
theorem blockWritesStayInDmaWindow : Obligations.BlockWritesStayInDmaWindow := by
  intro s t turn rest hs h hturn
  refine step_endsIn (P := WritesInDmaWindow s) hs ?_ h
  obtain rfl | rfl | rfl | ⟨v, rfl⟩ | ⟨f, rfl⟩ | ⟨addr, width, rfl⟩ := hturn
  · exact fetchTx_endsIn { s with schedule := rest }
  · exact fetchPp_endsIn { s with schedule := rest }
  · exact writesInDmaWindow_of_mem_eq (resetBlock_mem _)
  · exact fetchMdio_endsIn { s with schedule := rest, phyIn := v }
  · exact fetchRx_endsIn { s with schedule := rest, wireIn := f }
  · exact fetchHostRead_endsIn addr width { s with schedule := rest }

end Sys2Proof.Machine
end

section
/-! The encodings of spec 30_encoding, format by format: what each word or offset can be, and that decoder and encoder
invert each other (R110 to R120). -/

namespace Sys2Proof.Machine

theorem toNat_getLsbD {w : Nat} (x : BitVec w) (i : Nat) : (x.getLsbD i).toNat = x.toNat / 2 ^ i % 2 :=
  Nat.toNat_testBit x.toNat i

theorem getLsbD_eq_of_toNat {w i : Nat} {x : BitVec w} {b : Bool} (h : x.toNat / 2 ^ i % 2 = b.toNat) :
    x.getLsbD i = b := by
  rw [getLsbD_eq_decide, h]
  cases b <;> rfl

/-! ## Register accesses (R111, R20) -/

theorem reservedOffset_iff (offset : BitVec 12) :
    reservedOffset offset = true ↔ offset.toNat % 4 = 0 ∧
      (0x038 ≤ offset.toNat ∧ offset.toNat ≤ 0x03C ∨ 0x088 ≤ offset.toNat ∧ offset.toNat ≤ 0x0FC ∨
        0x128 ≤ offset.toNat ∧ offset.toNat ≤ 0x13C ∨ 0x164 ≤ offset.toNat ∧ offset.toNat ≤ 0x17C ∨
        0x1A0 ≤ offset.toNat) := by
  simp [reservedOffset, or_assoc]

/-- What an offset selects: nothing, the reserved behaviour, or the one register that stands there.  In the last arm of
the decoder the offset is none of the registers', so an aligned one is reserved. -/
theorem decodeMmio_cases (offset : BitVec 12) (a : RegAccess) :
    (offset.toNat % 4 ≠ 0 ∧ decodeMmio offset a = .rejected .misalignedOffset) ∨
    (reservedOffset offset = true ∧ decodeMmio offset a = .ok (.reserved offset a)) ∨
    (reservedOffset offset = false ∧ ∃ i, decodeMmio offset a = .ok i ∧ i.wellFormed = true ∧
      encode i = encodeMmio offset a ∧ ∀ o b, i ≠ .reserved o b) := by
  unfold decodeMmio
  split
  case h_60 =>
    split
    · rename_i halign
      refine .inr (.inl ⟨(reservedOffset_iff offset).2 ⟨halign, ?_⟩, rfl⟩)
      grind only
    · rename_i h
      exact .inl ⟨h, rfl⟩
  all_goals
    rename_i h
    obtain ⟨-, rfl⟩ := BitVec.toNat_eq_nat.1 h
    exact .inr (.inr ⟨rfl, _, rfl, rfl, rfl, nofun⟩)

theorem decodeMmio_reserved {offset : BitVec 12} (h : reservedOffset offset = true) (a : RegAccess) :
    decodeMmio offset a = .ok (.reserved offset a) := by
  rcases decodeMmio_cases offset a with ⟨hmis, -⟩ | ⟨-, e⟩ | ⟨hres, -⟩
  · exact absurd ((reservedOffset_iff offset).1 h).1 hmis
  · exact e
  · rw [h] at hres
    cases hres

theorem decode_encode_mmio {i : Instr} (hf : formatOf i = .mmio) (hwf : i.wellFormed = true) :
    decode .mmio (encode i) = .ok i := by
  cases i with
  | reserved offset a => exact (decode_encodeMmio offset a).trans (decodeMmio_reserved hwf a)
  | ctrl a | eir a | eimr a | status a | tdsr a | rdsr a | tdar a | rdar a | rxmax a | maclo a | machi a | tdcur a
  | rdcur a | mmfr a | cntTxSent a | cntTxErr a | cntRxStored a | cntRxNodesc a | cntRxOversize a | cntL2ArpAcc a
  | cntL2Ip4Acc a | cntL2ArpDrop a | cntL2Ip4Drop a | cntL2OtherDrop a | cntArpBad a | cntIp4Badhdr a | cntIp4Badcsum a
  | cntIp4Baddst a | cntIp4Badproto a | cntIcmpDrop a | cntUdpBadlen a | cntUdpNoport a | ppCmd a | ppStatus a | p0 a
  | p1 a | p2 a | p3 a | p4 a | p5 a | p6 a | p7 a | ip4Addr a | ip4Mask a | ip4Gw a | ip4Ttl a | arpSel a | arpIp a
  | arpMaclo a | arpMachi a | arpTs a | udpPort0 a | udpPort1 a | udpPort2 a | udpPort3 a | udpPort4 a | udpPort5 a
  | udpPort6 a | udpPort7 a => exact decode_encodeMmio _ a
  | _ => cases hf

/-! ## Descriptors (R112) -/

theorem toNat_descWord (own : Bool) (c : DescCtl) :
    (descWord own c).toNat = own.toNat * 2 ^ 31 + c.wrap.toNat * 2 ^ 30 + c.ioc.toNat * 2 ^ 29 + c.done.toNat * 2 ^ 28 +
      c.err.toNat * 2 ^ 27 + c.reserved.toNat * 2 ^ 16 + c.len.toNat := by
  simp only [descWord, toNat_append_eq_add, BitVec.toNat_ofBool]
  omega

/-- Each bit and field of word 0 is read where it was written. -/
theorem descWord_fields (own : Bool) (c : DescCtl) :
    ownBit (descWord own c) = own ∧ descCtlOf (descWord own c) = c := by
  obtain ⟨wrap, ioc, done, err, reserved, len⟩ := c
  have hown := own.toNat_lt
  have hwrap := wrap.toNat_lt
  have hioc := ioc.toNat_lt
  have hdone := done.toNat_lt
  have herr := err.toNat_lt
  have hreserved := reserved.isLt
  have hlen := len.isLt
  rw [descCtlOf, DescCtl.mk.injEq]
  refine ⟨getLsbD_eq_of_toNat ?_, getLsbD_eq_of_toNat ?_, getLsbD_eq_of_toNat ?_, getLsbD_eq_of_toNat ?_,
    getLsbD_eq_of_toNat ?_, BitVec.eq_of_toNat_eq ?_, BitVec.eq_of_toNat_eq ?_⟩ <;>
    simp only [toNat_extractLsb'_eq, toNat_descWord] <;> omega

theorem decode_txDesc_leBytes4 (w0 w1 : Word) :
    decode .txDesc (leBytes4 w0 ++ leBytes4 w1) = .ok (decodeTxDesc w0 w1) := by
  simp [leBytes4, decode]

theorem decode_rxDesc_leBytes4 (w0 w1 : Word) :
    decode .rxDesc (leBytes4 w0 ++ leBytes4 w1) = .ok (decodeRxDesc w0 w1) := by
  simp [leBytes4, decode]

theorem decodeTxDesc_descWord (own : Bool) (c : DescCtl) (w1 : Word) :
    decodeTxDesc (descWord own c) w1 = if own then .txd c w1 else .txdStop c := by
  obtain ⟨hown, hctl⟩ := descWord_fields own c
  rw [decodeTxDesc, hown, hctl]

theorem decodeRxDesc_descWord (own : Bool) (c : DescCtl) (w1 : Word) :
    decodeRxDesc (descWord own c) w1 = if own then .rxd c w1 else .rxdStop c := by
  obtain ⟨hown, hctl⟩ := descWord_fields own c
  rw [decodeRxDesc, hown, hctl]

theorem decode_encode_txDesc {i : Instr} (hf : formatOf i = .txDesc) : decode .txDesc (encode i) = .ok i := by
  cases i with
  | txd c buf => exact (decode_txDesc_leBytes4 _ buf).trans (congrArg Decoded.ok (decodeTxDesc_descWord true c buf))
  | txdStop c => exact (decode_txDesc_leBytes4 _ _).trans (congrArg Decoded.ok (decodeTxDesc_descWord false c 0#32))
  | _ => cases hf

theorem decode_encode_rxDesc {i : Instr} (hf : formatOf i = .rxDesc) : decode .rxDesc (encode i) = .ok i := by
  cases i with
  | rxd c buf => exact (decode_rxDesc_leBytes4 _ buf).trans (congrArg Decoded.ok (decodeRxDesc_descWord true c buf))
  | rxdStop c => exact (decode_rxDesc_leBytes4 _ _).trans (congrArg Decoded.ok (decodeRxDesc_descWord false c 0#32))
  | _ => cases hf

/-! ## Management words (R113, R119) -/

theorem mmfrStarts_iff (w : Word) :
    mmfrStarts w = true ↔
      w.extractLsb' 30 2 = 0b01#2 ∧ (w.extractLsb' 28 2 = 0b10#2 ∨ w.extractLsb' 28 2 = 0b01#2) := by
  simp [mmfrStarts]

theorem toNat_mmfrWord (op : BitVec 2) (pa ra : BitVec 5) (ta : BitVec 2) (data : Half) :
    (mmfrWord op pa ra ta data).toNat =
      2 ^ 30 + op.toNat * 2 ^ 28 + pa.toNat * 2 ^ 23 + ra.toNat * 2 ^ 18 + ta.toNat * 2 ^ 16 + data.toNat := by
  simp only [mmfrWord, toNat_append_eq_add, BitVec.toNat_ofNat]
  omega

/-- Each field of a management word is read where it was written. -/
theorem mmfrWord_fields (op : BitVec 2) (pa ra : BitVec 5) (ta : BitVec 2) (data : Half) :
    let w := mmfrWord op pa ra ta data
    w.extractLsb' 30 2 = 0b01#2 ∧ w.extractLsb' 28 2 = op ∧ mmfrPa w = pa ∧ mmfrRa w = ra ∧
      w.extractLsb' 16 2 = ta ∧ w.extractLsb' 0 16 = data := by
  have hop := op.isLt
  have hpa := pa.isLt
  have hra := ra.isLt
  have hta := ta.isLt
  have hdata := data.isLt
  refine ⟨?_, ?_, ?_, ?_, ?_, ?_⟩ <;> apply BitVec.eq_of_toNat_eq <;>
    simp only [mmfrPa, mmfrRa, toNat_extractLsb'_eq, toNat_mmfrWord, BitVec.toNat_ofNat] <;> omega

/-- A word with `ST = 01` is put together from its fields. -/
theorem mmfrWord_of_fields {w : Word} (hst : w.extractLsb' 30 2 = 0b01#2) :
    mmfrWord (w.extractLsb' 28 2) (mmfrPa w) (mmfrRa w) (w.extractLsb' 16 2) (w.extractLsb' 0 16) = w := by
  apply BitVec.eq_of_toNat_eq
  have hw := w.isLt
  have hstart := congrArg BitVec.toNat hst
  simp only [toNat_extractLsb'_eq, BitVec.toNat_ofNat] at hstart
  simp only [toNat_mmfrWord, mmfrPa, mmfrRa, toNat_extractLsb'_eq]
  omega

/-- Every management word is a read frame, a write frame or one that starts nothing. -/
theorem managementWord_cases (w : Word) :
    (∃ pa ra ta data, w = mmfrWord 0b10#2 pa ra ta data) ∨ (∃ pa ra ta data, w = mmfrWord 0b01#2 pa ra ta data) ∨
      mmfrStarts w = false := by
  cases hs : mmfrStarts w with
  | false => exact .inr (.inr rfl)
  | true =>
    obtain ⟨hst, hop⟩ := (mmfrStarts_iff w).1 hs
    have hw := (mmfrWord_of_fields hst).symm
    rcases hop with hop | hop <;> rw [hop] at hw
    · exact .inl ⟨_, _, _, _, hw⟩
    · exact .inr (.inl ⟨_, _, _, _, hw⟩)

theorem decodeMmfr_read (pa ra : BitVec 5) (ta : BitVec 2) (data : Half) :
    decodeMmfr (mmfrWord 0b10#2 pa ra ta data) = .mdioRead pa ra ta data := by
  obtain ⟨hst, hop, hpa, hra, hta, hdata⟩ := mmfrWord_fields 0b10#2 pa ra ta data
  simp [decodeMmfr, hst, hop, hpa, hra, hta, hdata]

theorem decodeMmfr_write (pa ra : BitVec 5) (ta : BitVec 2) (data : Half) :
    decodeMmfr (mmfrWord 0b01#2 pa ra ta data) = .mdioWrite pa ra ta data := by
  obtain ⟨hst, hop, hpa, hra, hta, hdata⟩ := mmfrWord_fields 0b01#2 pa ra ta data
  simp [decodeMmfr, hst, hop, hpa, hra, hta, hdata]

theorem decodeMmfr_noOperation {w : Word} (h : mmfrStarts w = false) : decodeMmfr w = .mmfrNoOperation w := by
  rw [Bool.eq_false_iff, ne_eq, mmfrStarts_iff] at h
  unfold decodeMmfr
  rw [if_neg (by tauto), if_neg (by tauto)]

theorem decode_encode_mmfr {i : Instr} (hf : formatOf i = .mmfr) (hwf : i.wellFormed = true) :
    decode .mmfr (encode i) = .ok i := by
  cases i with
  | mdioRead pa ra ta data =>
    exact (decode_mmfr_leBytes4 _).trans (congrArg Decoded.ok (decodeMmfr_read pa ra ta data))
  | mdioWrite pa ra ta data =>
    exact (decode_mmfr_leBytes4 _).trans (congrArg Decoded.ok (decodeMmfr_write pa ra ta data))
  | mmfrNoOperation word =>
    have hs : mmfrStarts word = false := (Bool.not_eq_true' (mmfrStarts word)).mp hwf
    exact (decode_mmfr_leBytes4 word).trans (congrArg Decoded.ok (decodeMmfr_noOperation hs))
  | _ => cases hf

/-- The reading of a management word is an operation that encodes back to it. -/
theorem decodeMmfr_wellFormed (w : Word) :
    (decodeMmfr w).wellFormed = true ∧ encode (decodeMmfr w) = leBytes4 w := by
  rcases managementWord_cases w with ⟨pa, ra, ta, data, rfl⟩ | ⟨pa, ra, ta, data, rfl⟩ | hs
  · rw [decodeMmfr_read]
    exact ⟨rfl, rfl⟩
  · rw [decodeMmfr_write]
    exact ⟨rfl, rfl⟩
  · rw [decodeMmfr_noOperation hs]
    exact ⟨congrArg not hs, rfl⟩

/-! ## Command words (R114, R118, R120) -/

theorem ppIllegalWord_iff (w : Word) :
    ppIllegalWord w = true ↔
      w.extractLsb' 9 23 ≠ 0#23 ∨ 0x0F ≤ (w.extractLsb' 0 8).toNat ∨
        (w.getLsbD 8 = true ∧ w.extractLsb' 0 8 ≠ 0x08#8) := by
  simp [ppIllegalWord, or_assoc]

/-- A word whose bits 31:9 are zero is its bit 8 and its opcode. -/
theorem toNat_commandWord {w : Word} (hhigh : w.extractLsb' 9 23 = 0#23) :
    w.toNat = (w.getLsbD 8).toNat * 256 + (w.extractLsb' 0 8).toNat := by
  have hw := w.isLt
  have hzero := congrArg BitVec.toNat hhigh
  rw [toNat_extractLsb'_eq, BitVec.toNat_ofNat] at hzero
  rw [toNat_getLsbD, toNat_extractLsb'_eq]
  omega

/-- What a command word can be: illegal, or one of the words of R118, which `toNat_commandWord` makes a number. -/
theorem decodePp_cases (w : Word) :
    (ppIllegalWord w = true ∧ decodePp w = .ppIllegal w) ∨
    (ppIllegalWord w = false ∧ (decodePp w).wellFormed = true ∧ encode (decodePp w) = leBytes4 w ∧
      ∀ v, decodePp w ≠ .ppIllegal v) := by
  rw [ppIllegalWord_iff]
  unfold decodePp
  split
  next hhigh => exact .inl ⟨.inl hhigh, rfl⟩
  next hhigh =>
  have hw := toNat_commandWord (Decidable.not_not.1 hhigh)
  split
  next hflag =>
    split
    next hopc =>
      rw [hflag, hopc] at hw
      obtain ⟨-, rfl⟩ := BitVec.toNat_eq_nat.1 hw
      exact .inr ⟨rfl, rfl, rfl, nofun⟩
    next hopc => exact .inl ⟨.inr (.inr ⟨hflag, hopc⟩), rfl⟩
  next hflag =>
    rw [Bool.not_eq_true] at hflag
    rw [hflag] at hw
    split
    case h_16 =>
      refine .inl ⟨.inr (.inl ?_), rfl⟩
      grind only
    all_goals
      rename_i hopc
      rw [hopc] at hw
      obtain ⟨-, rfl⟩ := BitVec.toNat_eq_nat.1 hw
      exact .inr ⟨rfl, rfl, rfl, nofun⟩

theorem decodePp_eq_illegal_iff (w : Word) : decodePp w = .ppIllegal w ↔ ppIllegalWord w = true := by
  rcases decodePp_cases w with ⟨hill, e⟩ | ⟨hlegal, -, -, hne⟩
  · exact iff_of_true e hill
  · exact iff_of_false (hne w) (Bool.eq_false_iff.1 hlegal)

theorem decode_encode_ppCmd {i : Instr} (hf : formatOf i = .ppCmd) (hwf : i.wellFormed = true) :
    decode .ppCmd (encode i) = .ok i := by
  cases i with
  | ppIllegal word =>
    exact (decode_ppCmd_leBytes4 word).trans (congrArg Decoded.ok ((decodePp_eq_illegal_iff word).2 hwf))
  | udpHdr csum => cases csum <;> exact decode_ppCmd_leBytes4 _
  | nop | cksum | ethHdr | arpReq | arpReply | ip4Hdr | icmpEchoReq | icmpEchoReply | rxClassify | ip4Nexthop
  | arpResolve | arpUpdate | udpBind | udpUnbind => exact decode_ppCmd_leBytes4 _
  | _ => cases hf

/-- The reading of a command word is an operation that encodes back to it. -/
theorem decodePp_wellFormed (w : Word) : (decodePp w).wellFormed = true ∧ encode (decodePp w) = leBytes4 w := by
  rcases decodePp_cases w with ⟨hill, e⟩ | ⟨-, hwf, henc, -⟩
  · rw [e]
    exact ⟨hill, rfl⟩
  · exact ⟨hwf, henc⟩

theorem accessGated_accepted {v d : Word} {ok : Bool} {write : Word → State} {s : State} (h : ok = true) :
    accessGated v ok write (.write d) s = .next (write d) := by
  rw [h]
  rfl

/-- A write to `PP_CMD` while no command is pending stores the word, legal or not (R154). -/
theorem exec_ppCmd_accepted (w : Word) {s : State} (h : s.ppBusy = false) :
    exec (.ppCmd (.write w)) s = .next { s with ppCmd := w, ppBusy := true } :=
  accessGated_accepted (v := s.ppCmd) (write := fun d => { s with ppCmd := d, ppBusy := true }) (congrArg not h)

/-! ## The statements -/

/-- Settles O1, format by format. -/
theorem decodeAndEncodeAgree : Obligations.DecodeAndEncodeAgree := by
  intro i hwf
  cases hf : formatOf i with
  | mmio => exact decode_encode_mmio hf hwf
  | txDesc => exact decode_encode_txDesc hf
  | rxDesc => exact decode_encode_rxDesc hf
  | mmfr => exact decode_encode_mmfr hf hwf
  | ppCmd => exact decode_encode_ppCmd hf hwf

/-- Settles O2, from what each kind of word can be. -/
theorem wordsHaveOneMeaning : Obligations.WordsHaveOneMeaning := by
  intro w
  obtain ⟨hmmfr, hmmfrBytes⟩ := decodeMmfr_wellFormed w
  obtain ⟨hpp, hppBytes⟩ := decodePp_wellFormed w
  exact ⟨⟨hmmfr, formatOf_decodeMmfr w, hmmfrBytes⟩, hpp, formatOf_decodePp w, hppBytes⟩

/-- Settles O3: an illegal command is a `ppComplete` whose check fails with `ERR_BAD_CMD`. -/
theorem illegalCommandsCompleteWithBadCmd : Obligations.IllegalCommandsCompleteWithBadCmd := by
  intro w s
  exact ⟨(decodePp_eq_illegal_iff w).trans (ppIllegalWord_iff w), exec_ppCmd_accepted w, ppComplete_busy⟩

/-- Settles O5, by what the offset selects. -/
theorem registerWindowDecodes : Obligations.RegisterWindowDecodes := by
  intro offset a
  rcases decodeMmio_cases offset a with ⟨hmis, e⟩ | ⟨hres, e⟩ | ⟨hreg, i, e, hwf, henc, hne⟩
  · exact ⟨fun halign => absurd halign hmis, fun _ => e⟩
  · have halign := ((reservedOffset_iff offset).1 hres).1
    exact ⟨fun _ => ⟨_, e, hres, rfl, rfl, iff_of_true ⟨_, _, rfl⟩ hres⟩, fun hmis => absurd halign hmis⟩
  · have halign := (decodeMmio_ok_iff offset a).1 ⟨i, e⟩
    refine ⟨fun _ => ⟨i, e, hwf, formatOf_decodeMmio e, henc, ?_⟩, fun hmis => absurd halign hmis⟩
    exact iff_of_false (fun ⟨o, b, h⟩ => hne o b h) (Bool.eq_false_iff.1 hreg)

/-- Settles O4: every word of it is closed, so the decoder is run on each. -/
theorem sampleWordsDecode : Obligations.SampleWordsDecode := by
  unfold Obligations.SampleWordsDecode
  decide

end Sys2Proof.Machine
end

section
/-! The host's registers, one by one (40_mmio R140 to R162): what a read returns, what an accepted write stores, and that
a write which is not accepted changes nothing. -/

namespace Sys2Proof.Machine

/-! ## The two shapes of a register

The equations of `exec` turn every register access into one of these two. -/

theorem accessReadOnly_read {v w : Word} {s : State} (h : v = w) :
    accessReadOnly v .read s = .next { s with hostData := w } := by
  rw [h]
  rfl

theorem accessReadOnly_write {v d : Word} {s : State} : accessReadOnly v (.write d) s = .next s := rfl

theorem accessGated_read {v w : Word} {ok : Bool} {write : Word → State} {s : State} (h : v = w) :
    accessGated v ok write .read s = .next { s with hostData := w } := by
  rw [h]
  rfl

theorem accessGated_stores {v d : Word} {ok : Bool} {write : Word → State} {s t : State} (h : ok = true)
    (ht : write d = t) : accessGated v ok write (.write d) s = .next t := by
  rw [accessGated_accepted h, ht]

theorem accessGated_ignored {v d : Word} {ok : Bool} {write : Word → State} {s : State} (h : ok = false) :
    accessGated v ok write (.write d) s = .next s := by
  rw [h]
  rfl

/-! ## Fields of a written word -/

theorem extractLsb'_zero_eq {w : Nat} (x : BitVec w) (n : Nat) :
    x.extractLsb' 0 n = BitVec.ofNat n (x.toNat % 2 ^ n) := by
  apply BitVec.eq_of_toNat_eq
  rw [toNat_extractLsb'_eq, BitVec.toNat_ofNat, Nat.pow_zero, Nat.div_one, Nat.mod_mod]

/-- A ring base is rounded down, never refused (R26, R145). -/
theorem ringBase_eq (d : Word) : ringBase d = BitVec.ofNat 32 (d.toNat / 8 * 8) := by
  have hmask : ringBase d = d >>> 3 <<< 3 := (BitVec.shiftLeft_ushiftRight (x := d) (n := 3)).symm
  rw [hmask]
  apply BitVec.eq_of_toNat_eq
  rw [BitVec.toNat_shiftLeft, BitVec.toNat_ushiftRight, Nat.shiftLeft_eq, Nat.shiftRight_eq_div_pow, BitVec.toNat_ofNat]

/-- `ST = 01` and `OP = 10` or `01`, read as one field of four bits (R113, R180). -/
theorem mmfrStarts_iff_field (w : Word) :
    mmfrStarts w = true ↔ w.extractLsb' 28 4 = 0b0110#4 ∨ w.extractLsb' 28 4 = 0b0101#4 := by
  rw [mmfrStarts_iff]
  simp only [← BitVec.toNat_inj, toNat_extractLsb'_eq, BitVec.toNat_ofNat]
  omega

/-- `SRST` resets, and the rest of the write is ignored (R140). -/
theorem writeCtrl_of_reset {d : Word} (h : d.getLsbD 31 = true) (s : State) : writeCtrl d s = resetBlock s := if_pos h

theorem writeCtrl_of_noReset {d : Word} (h : d.getLsbD 31 = false) (s : State) :
    writeCtrl d s = { s with
      ctrlEn := d.getLsbD 0
      ctrlLoop := d.getLsbD 1
      txActive := s.txActive && d.getLsbD 0
      rxActive := s.rxActive && d.getLsbD 0 } := if_neg (Bool.eq_false_iff.1 h)

/-! ## Words as read -/

theorem ctrlWord_eq (s : State) : ctrlWord s = BitVec.ofNat 32 (s.ctrlEn.toNat + 2 * s.ctrlLoop.toNat) := by
  have hen := s.ctrlEn.toNat_lt
  have hloop := s.ctrlLoop.toNat_lt
  apply BitVec.eq_of_toNat_eq
  simp only [ctrlWord, toNat_append_eq_add, BitVec.toNat_ofBool, BitVec.toNat_ofNat]
  omega

/-- The interrupt output is a function of `EIR` and `EIMR` (R355). -/
theorem irq_eq (s : State) : s.irq = decide ((s.eir &&& s.eimr) ≠ 0#5) := decide_not.symm

theorem statusWord_eq (s : State) :
    statusWord s = BitVec.ofNat 32 (s.txActive.toNat + 2 * s.rxActive.toNat + 4 * s.mdioBusy.toNat +
      8 * s.ppBusy.toNat + 16 * s.halted.toNat + 32 * s.irq.toNat) := by
  have htx := s.txActive.toNat_lt
  have hrx := s.rxActive.toNat_lt
  have hmdio := s.mdioBusy.toNat_lt
  have hpp := s.ppBusy.toNat_lt
  have hhalted := s.halted.toNat_lt
  have hirq := s.irq.toNat_lt
  apply BitVec.eq_of_toNat_eq
  simp only [statusWord, toNat_append_eq_add, BitVec.toNat_ofBool, BitVec.toNat_ofNat]
  omega

theorem ppStatusWord_eq (s : State) :
    ppStatusWord s = BitVec.ofNat 32 (s.ppBusy.toNat + 256 * s.ppResult.code.toNat) := by
  have hpp := s.ppBusy.toNat_lt
  have hcode := s.ppResult.code.isLt
  apply BitVec.eq_of_toNat_eq
  simp only [ppStatusWord, toNat_append_eq_add, BitVec.toNat_ofBool, BitVec.toNat_ofNat]
  omega

theorem toNat_code (a : ArpState) : a.code.toNat = if a = .empty then 0 else if a = .pending then 1 else 2 := by
  cases a <;> rfl

/-- `ARP_MACHI` holds the upper MAC bytes and above them the entry's state (R159). -/
theorem arpMachiWord_eq (e : ArpEntry) :
    arpMachiWord e = BitVec.ofNat 32 (e.mac.toNat / 2 ^ 32 +
      0x10000 * (if e.state = .empty then 0 else if e.state = .pending then 1 else 2)) := by
  rw [← toNat_code]
  have hmac := e.mac.isLt
  have hcode := e.state.code.isLt
  apply BitVec.eq_of_toNat_eq
  simp only [arpMachiWord, toNat_append_eq_add, toNat_extractLsb'_eq, BitVec.toNat_ofNat]
  omega

/-! ## What no register access touches -/

/-- `t` has the memory, the outputs, the counters, the tables, the result code and `HALTED` of `s`. -/
def KeepsRecords (s t : State) : Prop :=
  t.mem = s.mem ∧ t.wireTx = s.wireTx ∧ t.phyLog = s.phyLog ∧ t.counters = s.counters ∧
    t.arp = s.arp ∧ t.udpPort = s.udpPort ∧ t.ppResult = s.ppResult ∧ t.halted = s.halted

theorem keepsRecords_refl (s : State) : KeepsRecords s s := ⟨rfl, rfl, rfl, rfl, rfl, rfl, rfl, rfl⟩

theorem keepsRecords_readReg (v : Word) (s : State) : KeepsRecords s (readReg v s) := keepsRecords_refl s

theorem accessReadOnly_keepsRecords (v : Word) (a : RegAccess) (s : State) :
    ∃ t, accessReadOnly v a s = .next t ∧ KeepsRecords s t := by
  cases a with
  | read => exact ⟨_, rfl, keepsRecords_readReg v s⟩
  | write d => exact ⟨_, rfl, keepsRecords_refl s⟩

theorem accessGated_keepsRecords (v : Word) (ok : Bool) {write : Word → State} {a : RegAccess} {s : State}
    (hw : ∀ d, a = .write d → KeepsRecords s (write d)) :
    ∃ t, accessGated v ok write a s = .next t ∧ KeepsRecords s t := by
  cases a with
  | read => exact ⟨_, rfl, keepsRecords_readReg v s⟩
  | write d =>
    cases ok with
    | false => exact ⟨_, rfl, keepsRecords_refl s⟩
    | true => exact ⟨_, rfl, hw d rfl⟩

theorem writeCtrl_keepsRecords {d : Word} (h : d.getLsbD 31 = false) (s : State) :
    KeepsRecords s (writeCtrl d s) := by
  rw [writeCtrl_of_noReset h]
  exact keepsRecords_refl s

theorem registerAccess_keepsRecords {i : Instr} (hf : formatOf i = .mmio) (hr : softReset i = false) (s : State) :
    ∃ t, exec i s = .next t ∧ KeepsRecords s t := by
  cases i with
  | ctrl a =>
    exact accessGated_keepsRecords _ _ fun d ha => writeCtrl_keepsRecords (by rw [ha] at hr; exact hr) s
  | eir a | eimr a | tdsr a | rdsr a | tdar a | rdar a | rxmax a | maclo a | machi a | mmfr a | ppCmd a | p0 a | p1 a
  | p2 a | p3 a | p4 a | p5 a | p6 a | p7 a | ip4Addr a | ip4Mask a | ip4Gw a | ip4Ttl a | arpSel a =>
    exact accessGated_keepsRecords _ _ fun _ _ => keepsRecords_refl s
  | status a | tdcur a | rdcur a | cntTxSent a | cntTxErr a | cntRxStored a | cntRxNodesc a | cntRxOversize a
  | cntL2ArpAcc a | cntL2Ip4Acc a | cntL2ArpDrop a | cntL2Ip4Drop a | cntL2OtherDrop a | cntArpBad a | cntIp4Badhdr a
  | cntIp4Badcsum a | cntIp4Baddst a | cntIp4Badproto a | cntIcmpDrop a | cntUdpBadlen a | cntUdpNoport a | ppStatus a
  | arpIp a | arpMaclo a | arpMachi a | arpTs a | udpPort0 a | udpPort1 a | udpPort2 a | udpPort3 a | udpPort4 a
  | udpPort5 a | udpPort6 a | udpPort7 a | reserved _ a =>
    exact accessReadOnly_keepsRecords _ _ s
  | _ => cases hf

/-! ## Writes that are not accepted -/

theorem leBytes6_injective {v w : BitVec 48} (h : leBytes6 v = leBytes6 w) : v = w := by
  rw [← leBytes6_append v, ← leBytes6_append w]
  simp only [leBytes6, List.cons.injEq, and_true] at h
  obtain ⟨h0, h1, h2, h3, h4, h5⟩ := h
  rw [h0, h1, h2, h3, h4, h5]

/-- The bytes of a register access name its offset and its data (R111). -/
theorem encodeMmio_injective {o o' : BitVec 12} {a a' : RegAccess} (h : encodeMmio o a = encodeMmio o' a') :
    o = o' ∧ a = a' := by
  have hbits : mmioBits o a = mmioBits o' a' := leBytes6_injective h
  constructor
  · rw [← mmioBits_offset o a, hbits, mmioBits_offset]
  · rw [← mmioAccess_mmioBits o a, hbits, mmioAccess_mmioBits]

/-- The register at an offset takes a write exactly as the acceptance table says, so one it does not accept is ignored
(R162).  The encoding gives each register's offset. -/
theorem exec_unaccepted_write {i : Instr} {offset : BitVec 12} {d : Word} {s : State}
    (hi : decodeMmio offset (.write d) = .ok i) (h : writeAccepted offset.toNat s = false) : exec i s = .next s := by
  have hf := formatOf_decodeMmio hi
  rcases decodeMmio_cases offset (.write d) with ⟨-, e⟩ | ⟨-, e⟩ | ⟨-, j, e, -, henc, hne⟩ <;>
    rw [hi] at e <;> cases e
  · rfl
  · cases i with
    | ctrl a | eir a | eimr a | rxmax a =>
      obtain ⟨rfl, rfl⟩ := encodeMmio_injective henc
      cases h
    | tdsr a | rdsr a | tdar a | rdar a | maclo a | machi a | mmfr a | ppCmd a | p0 a | p1 a | p2 a | p3 a | p4 a
    | p5 a | p6 a | p7 a | ip4Addr a | ip4Mask a | ip4Gw a | ip4Ttl a | arpSel a =>
      obtain ⟨rfl, rfl⟩ := encodeMmio_injective henc
      simp only [exec]
      exact accessGated_ignored h
    | status a | tdcur a | rdcur a | cntTxSent a | cntTxErr a | cntRxStored a | cntRxNodesc a | cntRxOversize a
    | cntL2ArpAcc a | cntL2Ip4Acc a | cntL2ArpDrop a | cntL2Ip4Drop a | cntL2OtherDrop a | cntArpBad a | cntIp4Badhdr a
    | cntIp4Badcsum a | cntIp4Baddst a | cntIp4Badproto a | cntIcmpDrop a | cntUdpBadlen a | cntUdpNoport a
    | ppStatus a | arpIp a | arpMaclo a | arpMachi a | arpTs a | udpPort0 a | udpPort1 a | udpPort2 a | udpPort3 a
    | udpPort4 a | udpPort5 a | udpPort6 a | udpPort7 a =>
      obtain ⟨-, rfl⟩ := encodeMmio_injective henc
      rfl
    | reserved o a => exact absurd rfl (hne o a)
    | _ => cases hf

/-! ## The statements -/

/-- Settles O23, by the register that stands at the offset. -/
theorem unacceptedWritesAreIgnored : Obligations.UnacceptedWritesAreIgnored := by
  intro s offset d halign h
  obtain ⟨i, hi⟩ := (decodeMmio_ok_iff offset (.write d)).2 halign
  exact ⟨i, hi, exec_unaccepted_write hi h⟩

/-- Settles O24, register by register. -/
theorem registerAccessFrame : Obligations.RegisterAccessFrame := fun _ s hf hr => registerAccess_keepsRecords hf hr s

/-- Settles O12, by the bits of `SRST` and `EN` in the data. -/
theorem controlRegister : Obligations.ControlRegister := by
  intro s d
  simp only [exec]
  refine ⟨accessGated_read (ctrlWord_eq s), fun hsrst => ?_, fun hsrst hen => ?_, fun hsrst hen => ?_⟩ <;>
    refine accessGated_stores rfl ?_
  · exact writeCtrl_of_reset hsrst s
  · rw [writeCtrl_of_noReset hsrst, hen, Bool.and_true, Bool.and_true]
  · rw [writeCtrl_of_noReset hsrst, hen, Bool.and_false, Bool.and_false]

/-- Settles O13: both are read-only, and their words are sums of their fields. -/
theorem statusRegistersRead : Obligations.StatusRegistersRead := by
  intro s d
  simp only [exec]
  rw [← irq_eq s]
  exact ⟨rfl, accessReadOnly_read (statusWord_eq s), accessReadOnly_read (ppStatusWord_eq s),
    accessReadOnly_write, accessReadOnly_write⟩

/-- Settles O14: both writes are always accepted. -/
theorem eventRegisters : Obligations.EventRegisters := by
  intro s d
  simp only [exec]
  refine ⟨irq_eq s, accessGated_read rfl, accessGated_read rfl, ⟨_, accessGated_stores rfl rfl, fun k => ?_⟩,
    ⟨_, accessGated_stores rfl rfl, fun k hk => ?_⟩⟩
  · by_cases hk : k < 5
    · simp [hk]
    · simp [BitVec.getLsbD_of_ge s.eir k (by omega)]
  · simp [hk]

/-- Settles O15, with the base written as a rounded number. -/
theorem ringRegisters : Obligations.RingRegisters := by
  intro s d
  simp only [exec]
  rw [← ringBase_eq d]
  exact ⟨accessGated_read rfl, accessGated_read rfl, accessReadOnly_read rfl, accessReadOnly_read rfl,
    fun h => accessGated_stores (congrArg not h) rfl, fun h => accessGated_ignored (congrArg not h),
    fun h => accessGated_stores (congrArg not h) rfl, fun h => accessGated_ignored (congrArg not h),
    accessReadOnly_write, accessReadOnly_write⟩

/-- Settles O16, by the one condition of both registers. -/
theorem activationRegisters : Obligations.ActivationRegisters := by
  intro s d
  simp only [exec]
  refine ⟨accessGated_read rfl, accessGated_read rfl, fun hen hhalted => ?_, fun h => ?_⟩
  · have hok : (s.ctrlEn && !s.halted) = true := by rw [hen, hhalted]; rfl
    exact ⟨accessGated_stores hok rfl, accessGated_stores hok rfl⟩
  · have hlost : (s.ctrlEn && !s.halted) = false := by rcases h with h | h <;> simp [h]
    exact ⟨accessGated_ignored hlost, accessGated_ignored hlost⟩

/-- Settles O17, by `PP_BUSY`. -/
theorem receiveLimitAndStationRegisters : Obligations.ReceiveLimitAndStationRegisters := by
  intro s d
  simp only [exec]
  rw [← show lo16 d = BitVec.ofNat 16 (d.toNat % 0x10000) from extractLsb'_zero_eq d 16]
  exact ⟨accessGated_read rfl, accessGated_read rfl, accessGated_read rfl, accessGated_stores rfl rfl,
    fun h => ⟨accessGated_stores (congrArg not h) rfl, accessGated_stores (congrArg not h) rfl⟩,
    fun h => ⟨accessGated_ignored (congrArg not h), accessGated_ignored (congrArg not h)⟩⟩

/-- Settles O18, by `MDIO_BUSY` and then by what the word asks for. -/
theorem managementFrameRegister : Obligations.ManagementFrameRegister := by
  intro s d
  simp only [exec]
  refine ⟨accessGated_read rfl, fun h => accessGated_ignored (congrArg not h), fun h hop => ?_,
    fun h hread hwrite => ?_⟩ <;> refine accessGated_stores (congrArg not h) ?_
  · rw [(mmfrStarts_iff_field d).2 hop]
  · have hstarts : mmfrStarts d = s.mdioBusy := by
      rw [h, Bool.eq_false_iff, ne_eq, mmfrStarts_iff_field, not_or]
      exact ⟨hread, hwrite⟩
    rw [hstarts]

/-- Settles O19: the thirteen registers share the one condition `PP_BUSY = 0`. -/
theorem commandAndOperandRegisters : Obligations.CommandAndOperandRegisters := by
  intro s d
  simp only [exec]
  rw [← show lo8 d = BitVec.ofNat 8 (d.toNat % 0x100) from extractLsb'_zero_eq d 8]
  refine ⟨?_, fun h => ?_, fun h => ?_⟩
  · and_intros <;> exact accessGated_read rfl
  · and_intros <;> exact accessGated_stores (congrArg not h) rfl
  · and_intros <;> exact accessGated_ignored (congrArg not h)

/-- Settles O20: `ARP_SEL` is gated by `PP_BUSY`; the window and the ports are read-only. -/
theorem tableWindowRegisters : Obligations.TableWindowRegisters := by
  rintro s d _ rfl
  simp only [exec]
  refine ⟨accessGated_read rfl, fun h => ?_, fun h => accessGated_ignored (congrArg not h), accessReadOnly_read rfl,
    accessReadOnly_read (extractLsb'_zero_eq _ 32), accessReadOnly_read (arpMachiWord_eq _), accessReadOnly_read rfl,
    accessReadOnly_write, accessReadOnly_write, accessReadOnly_write, accessReadOnly_write,
    accessReadOnly_read rfl, accessReadOnly_read rfl, accessReadOnly_read rfl, accessReadOnly_read rfl,
    accessReadOnly_read rfl, accessReadOnly_read rfl, accessReadOnly_read rfl, accessReadOnly_read rfl, ?_⟩
  · rw [← show d.extractLsb' 0 4 = BitVec.ofNat 4 (d.toNat % 0x10) from extractLsb'_zero_eq d 4]
    exact accessGated_stores (congrArg not h) rfl
  · and_intros <;> exact accessReadOnly_write

/-- Settles O21: every one of them is read-only. -/
theorem countersAndReservedOffsets : Obligations.CountersAndReservedOffsets := by
  intro s d o
  simp only [exec]
  constructor
  · and_intros <;> exact accessReadOnly_read rfl
  · and_intros <;> exact accessReadOnly_write

end Sys2Proof.Machine
end

section
/-! The MDIO engine's operations (41_mdio R181 to R183): what a pending frame completes to, and what a word that starts
none does. -/

namespace Sys2Proof.Machine

/-- The answer of the PHY replaces the low half of `MMFR` (R181). -/
theorem highHalf_append_eq (w : Word) (v : Half) :
    w.extractLsb' 16 16 ++ v = BitVec.ofNat 32 (w.toNat / 0x10000 * 0x10000 + v.toNat) := by
  have hw := w.isLt
  have hv := v.isLt
  apply BitVec.eq_of_toNat_eq
  simp only [toNat_append_eq_add, toNat_extractLsb'_eq, BitVec.toNat_ofNat]
  omega

theorem mdioDone_eq (s : State) : mdioDone s = { s with mdioBusy := false, eir := s.eir ||| 0b00001#5 } := rfl

theorem exec_mdioRead_pending {s : State} (h : s.mdioBusy = true) (pa ra : BitVec 5) (ta : BitVec 2) (data : Half) :
    exec (.mdioRead pa ra ta data) s = .next (mdioDone
      { s with
        mmfr := BitVec.ofNat 32 (s.mmfr.toNat / 0x10000 * 0x10000 + s.phyIn.toNat)
        phyLog := s.phyLog ++ [.read pa ra s.phyIn] }) := by
  rw [← highHalf_append_eq]
  exact congrArg Host.Outcome.next (if_pos h)

theorem exec_mdioWrite_pending {s : State} (h : s.mdioBusy = true) (pa ra : BitVec 5) (ta : BitVec 2) (data : Half) :
    exec (.mdioWrite pa ra ta data) s = .next (mdioDone { s with phyLog := s.phyLog ++ [.write pa ra data] }) :=
  congrArg Host.Outcome.next (if_pos h)

theorem exec_mmfrNoOperation_idle {s : State} (h : s.mdioBusy = false) (word : Word) :
    exec (.mmfrNoOperation word) s = .next { s with mmfr := word } :=
  congrArg Host.Outcome.next (if_neg (Bool.eq_false_iff.1 h))

/-- Settles O33: while an operation is pending, each frame does its work and ends in `mdioDone`. -/
theorem managementFramesComplete : Obligations.ManagementFramesComplete := by
  intro s pa ra ta data word
  refine ⟨fun hpending => ⟨?_, ?_⟩, fun hidle => exec_mmfrNoOperation_idle hidle word⟩
  · rw [exec_mdioRead_pending hpending, mdioDone_eq]
  · rw [exec_mdioWrite_pending hpending, mdioDone_eq]

end Sys2Proof.Machine
end

section
/-! What the two DMA engines share: the words written back to a descriptor, and what a store of a frame and of a word
leaves of memory (R81, R191, R192, R208). -/

namespace Sys2Proof.Machine

/-! ## Write-back words -/

/-- The five bits of word 0 above its fields (R112). -/
def descFlags (own wrap ioc done err : Bool) : BitVec 5 :=
  BitVec.ofBool own ++ BitVec.ofBool wrap ++ BitVec.ofBool ioc ++ BitVec.ofBool done ++ BitVec.ofBool err

theorem descWord_eq_append (own : Bool) (c : DescCtl) :
    descWord own c = descFlags own c.wrap c.ioc c.done c.err ++ c.reserved ++ c.len := rfl

/-- A write-back works on the flags and on the length separately and keeps the reserved bits. -/
theorem descWord_masked (own : Bool) (c : DescCtl) (keep put : BitVec 5) (keepLen setLen : Half) :
    descWord own c &&& (keep ++ BitVec.allOnes 11 ++ keepLen) ||| (put ++ 0#11 ++ setLen) =
      (descFlags own c.wrap c.ioc c.done c.err &&& keep ||| put) ++ c.reserved ++ (c.len &&& keepLen ||| setLen) := by
  rw [descWord_eq_append, BitVec.and_append, BitVec.and_append, BitVec.or_append, BitVec.or_append, BitVec.and_allOnes,
    BitVec.or_zero]

/-- `OWN` and `ERR` cleared, `DONE` set. -/
theorem descFlags_done : ∀ wrap ioc done err : Bool,
    descFlags true wrap ioc done err &&& 0b01100#5 ||| 0b00010#5 = descFlags false wrap ioc true false := by
  decide

/-- `OWN` cleared, `DONE` and `ERR` set. -/
theorem descFlags_failed : ∀ wrap ioc done err : Bool,
    descFlags true wrap ioc done err &&& 0b01111#5 ||| 0b00011#5 = descFlags false wrap ioc true true := by
  decide

theorem txDoneWord_descWord (c : DescCtl) :
    txDoneWord (descWord true c) = descWord false { c with done := true, err := false } := by
  have h := descWord_masked true c 0b01100#5 0b00010#5 (BitVec.allOnes 16) 0#16
  rw [descFlags_done, BitVec.and_allOnes, BitVec.or_zero] at h
  exact h

theorem txErrWord_descWord (c : DescCtl) :
    txErrWord (descWord true c) = descWord false { c with done := true, err := true } := by
  have h := descWord_masked true c 0b01111#5 0b00011#5 (BitVec.allOnes 16) 0#16
  rw [descFlags_failed, BitVec.and_allOnes, BitVec.or_zero] at h
  exact h

/-- A length of 16 bits fills the low half of word 0 and nothing above. -/
theorem done_or_ofLen {n : Nat} (h : n < 2 ^ 16) :
    0x10000000#32 ||| ofLen n = 0b00010#5 ++ 0#11 ++ BitVec.ofNat 16 n := by
  have hlen : ofLen n = 0#5 ++ 0#11 ++ BitVec.ofNat 16 n := by
    apply BitVec.eq_of_toNat_eq
    simp only [ofLen, toNat_append_eq_add, BitVec.toNat_ofNat]
    omega
  rw [hlen, show 0x10000000#32 = 0b00010#5 ++ 0#11 ++ 0#16 from rfl, BitVec.or_append, BitVec.or_append,
    BitVec.zero_or, BitVec.or_zero, BitVec.zero_or]

theorem rxDoneWord_descWord (c : DescCtl) {n : Nat} (h : n < 2 ^ 16) :
    rxDoneWord (descWord true c) n =
      descWord false { c with done := true, err := false, len := BitVec.ofNat 16 n } := by
  have hword := descWord_masked true c 0b01100#5 0b00010#5 0#16 (BitVec.ofNat 16 n)
  rw [descFlags_done, BitVec.and_zero, BitVec.zero_or] at hword
  rw [rxDoneWord, BitVec.or_assoc, done_or_ofLen h]
  exact hword

/-! ## Stores -/

theorem sameOutside_store32 (m : Memory) (a v : Word) : sameOutside m (store32 m a v) a 4 :=
  fun x hx => loadByte_storeBytes_ne m a (leBytes4 v) x hx

/-- A store does not reach the bytes of a range apart from it. -/
theorem loadBytes_storeBytes_of_apart (m : Memory) {a b : Word} {bs : List Byte} {n : Nat}
    (h : apart a bs.length b n) : loadBytes (storeBytes m a bs) b n = loadBytes m b n :=
  loadBytes_congr b n fun j hj =>
    loadByte_storeBytes_ne m a bs _ fun i hi e => h i hi j hj (BitVec.eq_of_toNat_eq e).symm

theorem loadBytes_store32_of_apart (m : Memory) {a b : Word} {n : Nat} (h : apart a 4 b n) (v : Word) :
    loadBytes (store32 m a v) b n = loadBytes m b n :=
  loadBytes_storeBytes_of_apart (bs := leBytes4 v) m h

/-- A word is its four bytes. -/
theorem load32_congr {m m' : Memory} {a : Word} (h : loadBytes m a 4 = loadBytes m' a 4) :
    load32 m a = load32 m' a := by
  simp only [loadBytes, BitVec.add_assoc, BitVec.reduceAdd, List.cons.injEq, and_true] at h
  obtain ⟨h0, h1, h2, h3⟩ := h
  rw [load32, load32, h0, h1, h2, h3]

theorem load32_store32_of_apart (m : Memory) {a b : Word} (h : apart a 4 b 4) (v : Word) :
    load32 (store32 m a v) b = load32 m b := load32_congr (loadBytes_store32_of_apart m h v)

/-- A stored frame stands whole beside the word written after it. -/
theorem loadBytes_store32_storeBytes {m : Memory} (hm : memoryWf m = true) {d buf : Word} {f : List Byte}
    (hl : f.length ≤ 2 ^ 32) (h : apart d 4 buf f.length) (w : Word) :
    loadBytes (store32 (storeBytes m buf f) d w) buf f.length = f :=
  (loadBytes_store32_of_apart _ h w).trans (loadBytes_storeBytes m hm buf f hl)

end Sys2Proof.Machine
end

section
/-! The two DMA engines, one outcome at a time (42_tx_dma R190 to R196, 43_rx_dma R205 to R211): the receive operation,
the delivery and the completion of a transmit descriptor, and the fetch that raises a bus error. -/

namespace Sys2Proof.Machine

theorem busError_eq (s : State) : busError s = s.busErrored := rfl

theorem setEventIf_eq (ioc : Bool) (e : EventBit) (s : State) :
    setEventIf ioc e s = { s with eir := if ioc then s.eir ||| e.mask else s.eir } := by
  cases ioc <;> rfl

/-- An event behind its `IOC` bit, as one more bit or none (R357). -/
theorem eventIf_eq_or (ioc : Bool) (e v : BitVec 5) :
    (if ioc then v ||| e else v) = v ||| (if ioc then e else 0#5) := by
  cases ioc
  · exact BitVec.or_zero.symm
  · rfl

/-! ## The receive operation -/

theorem rxIgnores_eq_false {s : State} (hen : s.ctrlEn = true) (hhalted : s.halted = false)
    (hloop : s.ctrlLoop = false) : rxIgnores s = false := by
  simp [rxIgnores, hen, hhalted, hloop]

theorem rxScreen_of_inactive {s : State} (h : s.rxActive = false) (f : List Byte) :
    rxScreen f s = some (count .rxNodesc s) := by
  simp [rxScreen, h]

theorem rxScreen_of_oversize {s : State} {f : List Byte} (ha : s.rxActive = true) (hl : s.rxmax.toNat < f.length) :
    rxScreen f s = some (count .rxOversize s) := by
  simp [rxScreen, ha, hl]

theorem rxScreen_of_fits {s : State} {f : List Byte} (ha : s.rxActive = true) (hl : f.length ≤ s.rxmax.toNat) :
    rxScreen f s = none := (rxScreen_eq_none_iff f s).2 ⟨ha, hl⟩

/-- The state in which the frame is stored through the descriptor `c` with buffer `buf` (R208, R210). -/
def rxStored (f : List Byte) (c : DescCtl) (buf : Word) (s : State) : State :=
  { s with
    mem := store32 (storeBytes s.mem buf f) s.rdcur (rxDoneWord (descWord true c) f.length)
    counters := s.counters.bump .rxStored
    eir := if c.ioc then s.eir ||| 0b00100#5 else s.eir
    rdcur := if c.wrap then s.rdsr else s.rdcur + 8#32 }

theorem rxStore_of_admitted {f : List Byte} {buf : Word} {s : State} (h : admitted s.platform buf f.length = true)
    (c : DescCtl) : rxStore f c buf s = some (rxStored f c buf s) := by
  rw [rxStore, if_pos h, setEventIf_eq]
  rfl

theorem rxStore_of_not_admitted {f : List Byte} {buf : Word} {s : State}
    (h : admitted s.platform buf f.length = false) (c : DescCtl) : rxStore f c buf s = none := by
  simp [rxStore, h]

theorem exec_rxd_of_not_admitted {s : State} (hg : rxIgnores s = false) (hs : rxScreen s.wireIn s = none) {buf : Word}
    (h : admitted s.platform buf s.wireIn.length = false) (c : DescCtl) :
    exec (.rxd c buf) s = .next s.busErrored := by
  simp only [exec, execRxd, hg, hs, rxStore_of_not_admitted h, Bool.false_eq_true, if_false, busError_eq]

theorem exec_rxdStop_screened {s : State} (hg : rxIgnores s = false) (hs : rxScreen s.wireIn s = none) (c : DescCtl) :
    exec (.rxdStop c) s = .next (rxStop s) := by
  simp only [exec, execRxdStop, hg, hs, Bool.false_eq_true, if_false]

/-! ## The loopback path -/

theorem loopbackReceive_of_screened {f : List Byte} {s t : State} (h : rxScreen f s = some t) :
    loopbackReceive f s = some t := by
  simp only [loopbackReceive, h]

section
variable {f : List Byte} {s : State} (hs : rxScreen f s = none)
include hs

theorem loopbackReceive_of_not_ready (h0 : admitted s.platform s.rdcur 4 = true)
    (hown : ownBit (load32 s.mem s.rdcur) = false) : loopbackReceive f s = some (rxStop s) := by
  simp [loopbackReceive, hs, h0, hown]

theorem loopbackReceive_of_ready (h0 : admitted s.platform s.rdcur 4 = true)
    (hown : ownBit (load32 s.mem s.rdcur) = true) (h1 : admitted s.platform (s.rdcur + 4#32) 4 = true) :
    loopbackReceive f s =
      rxStore f (descCtlOf (load32 s.mem s.rdcur)) (load32 s.mem (s.rdcur + 4#32)) s := by
  simp [loopbackReceive, hs, h0, hown, h1]

/-- The accesses of the receive side, in the order they are made; the first that is not admitted is a bus error. -/
theorem loopbackReceive_of_not_admitted
    (h : admitted s.platform s.rdcur 4 = false ∨
      (ownBit (load32 s.mem s.rdcur) = true ∧ (admitted s.platform (s.rdcur + 4#32) 4 = false ∨
        admitted s.platform (load32 s.mem (s.rdcur + 4#32)) f.length = false))) :
    loopbackReceive f s = none := by
  obtain h0 | ⟨hown, h1 | hbuf⟩ := h
  · simp [loopbackReceive, hs, h0]
  · simp [loopbackReceive, hs, hown, h1]
  · simp [loopbackReceive, hs, hown, rxStore_of_not_admitted hbuf]

end

/-! ## The transmit step -/

theorem txLenOk_iff (len : Half) : txLenOk len = true ↔ 14 ≤ len.toNat ∧ len.toNat ≤ 1514 := by
  simp [txLenOk, Config.txMinLen, Config.txMaxLen]

theorem txLenOk_eq_false_iff (len : Half) : txLenOk len = false ↔ len.toNat < 14 ∨ 1514 < len.toNat := by
  rw [← Bool.not_eq_true, txLenOk_iff]
  omega

theorem txReject_eq (c : DescCtl) (s : State) :
    txReject c s = { s with
      mem := store32 s.mem s.tdcur (descWord false { c with done := true, err := true })
      counters := s.counters.bump .txErr
      eir := if c.ioc then s.eir ||| 0b00010#5 else s.eir
      tdcur := if c.wrap then s.tdsr else s.tdcur + 8#32 } := by
  rw [txReject, setEventIf_eq, txErrWord_descWord]
  rfl

theorem txFinish_eq (c : DescCtl) (s : State) :
    txFinish c s = { s with
      mem := store32 s.mem s.tdcur (descWord false { c with done := true, err := false })
      counters := s.counters.bump .txSent
      eir := if c.ioc then s.eir ||| 0b00010#5 else s.eir
      tdcur := if c.wrap then s.tdsr else s.tdcur + 8#32 } := by
  rw [txFinish, setEventIf_eq, txDoneWord_descWord]
  rfl

theorem txDeliver_wire {s : State} (h : s.ctrlLoop = false) (f : List Byte) :
    txDeliver f s = some { s with wireTx := s.wireTx ++ [f] } := by
  simp [txDeliver, h]

theorem txDeliver_loopback {s : State} (h : s.ctrlLoop = true) (f : List Byte) :
    txDeliver f s = loopbackReceive f s := if_pos h

section
variable {s : State} (ha : s.txActive = true)
include ha

theorem exec_txd_active (c : DescCtl) (buf : Word) : exec (.txd c buf) s = .next (txProcess c buf s) :=
  congrArg Host.Outcome.next (if_pos ha)

theorem exec_txd_of_bad_length {c : DescCtl} (hl : txLenOk c.len = false) (buf : Word) :
    exec (.txd c buf) s = .next (txReject c s) := by
  simp [exec_txd_active ha, txProcess, hl]

variable {c : DescCtl} (hl : txLenOk c.len = true) {buf : Word}
include hl

theorem exec_txd_of_not_admitted (hbuf : admitted s.platform buf c.len.toNat = false) :
    exec (.txd c buf) s = .next s.busErrored := by
  simp [exec_txd_active ha, txProcess, hl, hbuf, busError_eq]

variable (hbuf : admitted s.platform buf c.len.toNat = true)
include hbuf

theorem exec_txd_delivered {t : State} (ht : txDeliver (loadBytes s.mem buf c.len.toNat) s = some t) :
    exec (.txd c buf) s = .next (txFinish c t) := by
  simp [exec_txd_active ha, txProcess, hl, hbuf, ht]

theorem exec_txd_undelivered (ht : txDeliver (loadBytes s.mem buf c.len.toNat) s = none) :
    exec (.txd c buf) s = .next s.busErrored := by
  simp [exec_txd_active ha, txProcess, hl, hbuf, ht, busError_eq]

end

/-! ## The transmit step in loopback mode (R196) -/

section
variable {s : State} (ha : s.txActive = true) (hloop : s.ctrlLoop = true) {c : DescCtl}
  (hl : txLenOk c.len = true) {buf : Word} (hbuf : admitted s.platform buf c.len.toNat = true)
include ha hloop hl hbuf

/-- Whatever the receive side does with the frame, the descriptor completes with `CNT_TX_SENT`. -/
theorem exec_txd_looped {t : State} (ht : loopbackReceive (loadBytes s.mem buf c.len.toNat) s = some t) :
    exec (.txd c buf) s = .next { t with
      mem := store32 t.mem t.tdcur (descWord false { c with done := true, err := false })
      counters := t.counters.bump .txSent
      eir := if c.ioc then t.eir ||| 0b00010#5 else t.eir
      tdcur := if c.wrap then t.tdsr else t.tdcur + 8#32 } :=
  (exec_txd_delivered ha hl hbuf ((txDeliver_loopback hloop _).trans ht)).trans
    (congrArg Host.Outcome.next (txFinish_eq c t))

/-- A receive side that stores nothing leaves the write-back as the one change of memory. -/
theorem exec_txd_looped_dropped (hm : memoryWf s.mem = true) {t : State}
    (ht : loopbackReceive (loadBytes s.mem buf c.len.toNat) s = some t) (hmem : t.mem = s.mem)
    (hcur : t.tdcur = s.tdcur) :
    ∃ m, exec (.txd c buf) s = .next { t with
        mem := m
        counters := t.counters.bump .txSent
        eir := if c.ioc then t.eir ||| 0b00010#5 else t.eir
        tdcur := if c.wrap then t.tdsr else t.tdcur + 8#32 } ∧
      load32 m s.tdcur = descWord false { c with done := true, err := false } ∧ sameOutside s.mem m s.tdcur 4 := by
  refine ⟨_, exec_txd_looped ha hloop hl hbuf ht, ?_⟩
  rw [hmem, hcur]
  exact ⟨load32_store32 s.mem hm s.tdcur _, sameOutside_store32 s.mem s.tdcur _⟩

/-- A bus error of the receive side is the whole step's (R195, R211). -/
theorem exec_txd_looped_busError (hr : loopbackReceive (loadBytes s.mem buf c.len.toNat) s = none) :
    exec (.txd c buf) s = .next s.busErrored :=
  exec_txd_undelivered ha hl hbuf ((txDeliver_loopback hloop _).trans hr)

end

/-- Memory after the frame and the two write-backs of a loopback step, in ranges that are apart. -/
theorem loopback_stores {m : Memory} (hm : memoryWf m = true) {f : List Byte} {len : Half}
    (hlen : f.length = len.toNat) {td rd rbuf : Word} (htr : apart td 4 rd 4) (htb : apart td 4 rbuf len.toNat)
    (hrb : apart rd 4 rbuf len.toNat) (c : DescCtl) (v : Word) {m' : Memory}
    (hm' : m' = store32 (store32 (storeBytes m rbuf f) rd (rxDoneWord (descWord true c) f.length)) td v) :
    load32 m' td = v ∧
      load32 m' rd = descWord false { c with done := true, err := false, len := len } ∧
      loadBytes m' rbuf len.toNat = f ∧
      (∀ x : Nat, (∀ i, i < 4 → x ≠ (td + BitVec.ofNat 32 i).toNat) →
        (∀ i, i < 4 → x ≠ (rd + BitVec.ofNat 32 i).toNat) →
        (∀ i, i < len.toNat → x ≠ (rbuf + BitVec.ofNat 32 i).toNat) → loadByte m' x = loadByte m x) := by
  subst hm'
  have hshort : f.length < 2 ^ 16 := hlen ▸ len.isLt
  rw [← hlen] at htb hrb ⊢
  have hframe : memoryWf (storeBytes m rbuf f) = true := memoryWf_storeBytes hm rbuf f
  refine ⟨load32_store32 _ (memoryWf_store32 hframe rd _) td v, ?_, ?_, fun x hxt hxr hxb => ?_⟩
  · rw [load32_store32_of_apart _ htr, load32_store32 _ hframe, rxDoneWord_descWord c hshort, hlen,
      BitVec.ofNat_toNat, BitVec.setWidth_eq]
  · rw [loadBytes_store32_of_apart _ htb, loadBytes_store32_storeBytes hm (by omega) hrb]
  · rw [sameOutside_store32 _ td v x hxt, sameOutside_store32 _ rd _ x hxr, loadByte_storeBytes_ne m rbuf f x hxb]

/-! ## The fetch of a descriptor -/

theorem step_of_settled {s t : State} {turn : Turn} {rest : List Turn} (hs : s.schedule = turn :: rest)
    (hf : fetchTurn turn { s with schedule := rest } = .settled t) : step s = .next t := by
  simp [step, fetch_cons hs, hf]

/-- The first word of a descriptor, or the second of a ready one, is not admitted (R195, R211). -/
theorem fetchDesc_of_not_admitted {d : Word} {s : State}
    (h : admitted s.platform d 4 = false ∨
      (ownBit (load32 s.mem d) = true ∧ admitted s.platform (d + 4#32) 4 = false)) (dec : Word → Word → Instr) :
    fetchDesc d dec s = .settled s.busErrored := by
  obtain h0 | ⟨hown, h1⟩ := h
  · simp [fetchDesc, h0, busError_eq]
  · simp [fetchDesc, isReady, hown, h1, busError_eq]

end Sys2Proof.Machine
end

section
/-! The statements about the transmit ring (42_tx_dma R191 to R196). -/

namespace Sys2Proof.Machine

/-- Settles O26: the frame goes to the wire, then the descriptor is finished. -/
theorem txdSendsTheFrame : Obligations.TxdSendsTheFrame := by
  intro s c buf hm ha hloop hmin hmax hbuf
  refine ⟨_, (exec_txd_delivered ha ((txLenOk_iff c.len).2 ⟨hmin, hmax⟩) hbuf (txDeliver_wire hloop _)).trans
    (congrArg Host.Outcome.next (txFinish_eq c _)), ?_, ?_, ?_⟩
  · exact load32_store32 s.mem hm s.tdcur _
  · exact sameOutside_store32 s.mem s.tdcur _
  · exact memoryWf_store32 hm s.tdcur _

/-- Settles O27: the descriptor is rejected before its buffer is looked at. -/
theorem txdRejectsBadLengths : Obligations.TxdRejectsBadLengths := by
  intro s c buf hm ha hlen
  refine ⟨_, (exec_txd_of_bad_length ha ((txLenOk_eq_false_iff c.len).2 hlen) buf).trans
    (congrArg Host.Outcome.next (txReject_eq c s)), ?_, ?_, ?_⟩
  · exact load32_store32 s.mem hm s.tdcur _
  · exact sameOutside_store32 s.mem s.tdcur _
  · exact memoryWf_store32 hm s.tdcur _

/-- Settles O28: neither side looks at more than the tests before the descriptor. -/
theorem notReadyDescriptorsStopTheRing : Obligations.NotReadyDescriptorsStopTheRing := by
  intro s c
  refine ⟨rfl, fun hen hhalted hloop hactive hfits => ?_⟩
  exact exec_rxdStop_screened (rxIgnores_eq_false hen hhalted hloop) (rxScreen_of_fits hactive hfits) c

/-- Settles O29, access by access: the two buffers, then the words of the two descriptors. -/
theorem busErrorsHaltTheEngines : Obligations.BusErrorsHaltTheEngines := by
  intro s rest c buf f
  refine ⟨fun ha hmin hmax hbuf => ?_, fun hen hhalted hloop hactive hfits hbuf => ?_, fun hs ha hdesc => ?_,
    fun hs hen hhalted hloop hactive hfits hdesc => ?_⟩
  · exact exec_txd_of_not_admitted ha ((txLenOk_iff c.len).2 ⟨hmin, hmax⟩) hbuf
  · exact exec_rxd_of_not_admitted (rxIgnores_eq_false hen hhalted hloop) (rxScreen_of_fits hactive hfits) hbuf c
  · refine step_of_settled hs ((if_pos ha).trans ?_)
    exact fetchDesc_of_not_admitted (s := { s with schedule := rest }) hdesc decodeTxDesc
  · refine step_of_settled hs ((fetchRx_of_screened (s := { s with schedule := rest, wireIn := f })
      (rxIgnores_eq_false hen hhalted hloop) (rxScreen_of_fits hactive hfits)).trans ?_)
    exact fetchDesc_of_not_admitted (s := { s with schedule := rest, wireIn := f }) hdesc decodeRxDesc

/-- Settles O30, by what the receive side does with the frame. -/
theorem loopbackReceivesWhatItSends : Obligations.LoopbackReceivesWhatItSends := by
  rintro s c buf hm ha hloop hmin hmax hbuf _ _ rfl rfl
  have hl : txLenOk c.len = true := (txLenOk_iff c.len).2 ⟨hmin, hmax⟩
  have hlen : (loadBytes s.mem buf c.len.toNat).length = c.len.toNat := length_loadBytes s.mem buf c.len.toNat
  refine ⟨fun hinactive => ?_, fun hactive hover => ?_, fun hactive hfits h0 hown => ?_,
    fun hactive hfits h0 hown h1 hrbuf htr htb hrb => ?_, fun hactive hfits hdenied => ?_⟩
  · exact exec_txd_looped_dropped ha hloop hl hbuf hm
      (loopbackReceive_of_screened (rxScreen_of_inactive hinactive _)) rfl rfl
  · rw [← hlen] at hover
    exact exec_txd_looped_dropped ha hloop hl hbuf hm
      (loopbackReceive_of_screened (rxScreen_of_oversize hactive hover)) rfl rfl
  · rw [← hlen] at hfits
    exact exec_txd_looped_dropped ha hloop hl hbuf hm
      (loopbackReceive_of_not_ready (rxScreen_of_fits hactive hfits) h0 hown) rfl rfl
  · rw [← hlen] at hfits hrbuf
    have hstored := exec_txd_looped ha hloop hl hbuf
      ((loopbackReceive_of_ready (rxScreen_of_fits hactive hfits) h0 hown h1).trans (rxStore_of_admitted hrbuf _))
    rw [eventIf_eq_or c.ioc] at hstored
    exact ⟨_, hstored, loopback_stores hm hlen htr htb hrb (descCtlOf (load32 s.mem s.rdcur)) _ rfl⟩
  · rw [← hlen] at hfits hdenied
    exact exec_txd_looped_busError ha hloop hl hbuf
      (loopbackReceive_of_not_admitted (rxScreen_of_fits hactive hfits) hdenied)

end Sys2Proof.Machine
end

section
/-! The statements about the receive ring (43_rx_dma R205 to R208, R210). -/

namespace Sys2Proof.Machine

/-! ## A frame that WIRE offers -/

theorem rxIgnores_iff (s : State) :
    rxIgnores s = true ↔ s.ctrlEn = false ∨ s.halted = true ∨ s.ctrlLoop = true := by
  simp [rxIgnores, or_assoc]

theorem fetchRx_of_ignored {s : State} (hg : rxIgnores s = true) : fetchRx s = .settled s := if_pos hg

theorem fetchRx_of_dropped {s t : State} (hg : rxIgnores s = false) (hd : rxScreen s.wireIn s = some t) :
    fetchRx s = .settled t := by
  simp [fetchRx, hg, hd]

section
variable {s : State} {rest : List Turn} {f : List Byte} (hs : s.schedule = .wire f :: rest)
include hs

/-- The offered frame stays in the host-only register that shows it; nothing else is touched (R205). -/
theorem step_wire_of_ignored (hg : rxIgnores s = true) :
    step s = .next { s with schedule := rest, wireIn := f } :=
  step_of_settled hs (fetchRx_of_ignored (s := { s with schedule := rest, wireIn := f }) hg)

/-- A frame the screening drops ends the step before any descriptor is read (R206, R207). -/
theorem step_wire_of_dropped (hg : rxIgnores s = false) {t : State}
    (hd : rxScreen f { s with schedule := rest, wireIn := f } = some t) : step s = .next t :=
  step_of_settled hs (fetchRx_of_dropped (s := { s with schedule := rest, wireIn := f }) hg hd)

end

/-- Settles O31, by the three tests in the order the receive side makes them. -/
theorem offeredFramesAreScreened : Obligations.OfferedFramesAreScreened := by
  intro s rest f hs
  refine ⟨fun hignored => ?_, fun hen hhalted hloop hinactive => ?_,
    fun hen hhalted hloop hactive hover => ?_⟩
  · exact step_wire_of_ignored hs ((rxIgnores_iff s).2 hignored)
  · exact step_wire_of_dropped hs (rxIgnores_eq_false hen hhalted hloop)
      (rxScreen_of_inactive (s := { s with schedule := rest, wireIn := f }) hinactive f)
  · exact step_wire_of_dropped hs (rxIgnores_eq_false hen hhalted hloop)
      (rxScreen_of_oversize (s := { s with schedule := rest, wireIn := f }) hactive hover)

/-! ## A frame that is stored -/

theorem exec_rxd_of_admitted {s : State} (hg : rxIgnores s = false) (hs : rxScreen s.wireIn s = none) {buf : Word}
    (h : admitted s.platform buf s.wireIn.length = true) (c : DescCtl) :
    exec (.rxd c buf) s = .next (rxStored s.wireIn c buf s) := by
  simp only [exec, execRxd, hg, hs, rxStore_of_admitted h, Bool.false_eq_true, if_false]

/-- Memory after the frame and the write-back of its descriptor. The word is written last, so it stands whatever the
buffer is; the frame stands where the two ranges are apart. -/
theorem receive_stores {m : Memory} (hm : memoryWf m = true) {f : List Byte} (hshort : f.length < 2 ^ 16)
    (rd buf : Word) (c : DescCtl) {m' : Memory}
    (hm' : m' = store32 (storeBytes m buf f) rd (rxDoneWord (descWord true c) f.length)) :
    load32 m' rd = descWord false { c with done := true, err := false, len := BitVec.ofNat 16 f.length } ∧
      (apart rd 4 buf f.length → loadBytes m' buf f.length = f) ∧
      (∀ x : Nat, (∀ i, i < 4 → x ≠ (rd + BitVec.ofNat 32 i).toNat) →
        (∀ i, i < f.length → x ≠ (buf + BitVec.ofNat 32 i).toNat) → loadByte m' x = loadByte m x) ∧
      memoryWf m' = true := by
  subst hm'
  have hframe : memoryWf (storeBytes m buf f) = true := memoryWf_storeBytes hm buf f
  refine ⟨?_, fun hapart => ?_, fun x hxr hxb => ?_, memoryWf_store32 hframe rd _⟩
  · rw [load32_store32 _ hframe, rxDoneWord_descWord c hshort]
  · exact loadBytes_store32_storeBytes hm (by omega) hapart _
  · rw [sameOutside_store32 _ rd _ x hxr, loadByte_storeBytes_ne m buf f x hxb]

/-- Settles O32: the frame passes the screening, and `RXMAX` of 16 bits bounds the length that is written back. -/
theorem rxdStoresTheFrame : Obligations.RxdStoresTheFrame := by
  intro s c buf hm hen hhalted hloop hactive hfits hbuf
  have hshort : s.wireIn.length < 2 ^ 16 := hfits.trans_lt s.rxmax.isLt
  exact ⟨_, exec_rxd_of_admitted (rxIgnores_eq_false hen hhalted hloop) (rxScreen_of_fits hactive hfits) hbuf c,
    receive_stores hm hshort s.rdcur buf c rfl⟩

end Sys2Proof.Machine
end

section
/-! The completion of a packet-processor command (44_pp_build R221, R222), one rule per outcome, and the two statements
about every command. -/

namespace Sys2Proof.Machine

theorem ppFinish_eq (r : PpResult) (s : State) : ppFinish r s = s.completed r := rfl

/-! ## The outcomes, in the order of R222's checks -/

section
variable {check : Option PpResult} {foot : Word} {len : Nat} {effect : PpEnd} {s : State} (hb : s.ppBusy = true)
include hb

theorem ppComplete_of_check {c : PpResult} (hc : check = some c) :
    ppComplete check foot len effect s = .next (s.completed c) := by
  simp [ppComplete_busy hb, ppExecute, hc, ppFinish_eq]

theorem ppComplete_of_not_admitted (hc : check = none) (ha : admitted s.platform foot len = false) :
    ppComplete check foot len effect s = .next (s.completed .errBus) := by
  simp [ppComplete_busy hb, ppExecute, hc, ha, ppFinish_eq]

theorem ppComplete_of_raised {c : PpResult} (hc : check = none) (ha : admitted s.platform foot len = true)
    (he : effect = .raised c) : ppComplete check foot len effect s = .next (s.completed c) := by
  simp [ppComplete_busy hb, ppExecute, hc, ha, he, ppFinish_eq]

theorem ppComplete_of_done {c : PpResult} {u : State} (hc : check = none) (ha : admitted s.platform foot len = true)
    (he : effect = .done c u) : ppComplete check foot len effect s = .next (u.completed c) := by
  simp [ppComplete_busy hb, ppExecute, hc, ha, he, ppFinish_eq]

/-- A busy command ends with a code in the state as it was, or with the code of its effect in the state that leaves. -/
theorem ppComplete_busy_cases :
    (∃ c, ppComplete check foot len effect s = .next (s.completed c)) ∨
      ∃ c u, effect = .done c u ∧ ppComplete check foot len effect s = .next (u.completed c) := by
  rw [ppComplete_busy hb]
  rcases ppExecute_cases check foot len effect s with
    ⟨c, -, e⟩ | ⟨-, -, e⟩ | ⟨c, -, -, -, e⟩ | ⟨c, u, -, -, he, e⟩ <;> rw [e]
  · exact .inl ⟨_, rfl⟩
  · exact .inl ⟨_, rfl⟩
  · exact .inl ⟨_, rfl⟩
  · exact .inr ⟨c, u, he, rfl⟩

end

/-! ## Every command -/

/-- A command has completed with some code in a state that differs from `s` in command state only. -/
theorem exec_ppCommand_completed {i : Instr} {s : State} (hf : formatOf i = .ppCmd) (hb : s.ppBusy = true) :
    ∃ c u, exec i s = .next (u.completed c) ∧ sameButCommandState s u ∧
      (u = s ∨ c.code.toNat = 0 ∨ 6 < c.code.toNat) := by
  obtain ⟨check, foot, len, effect, e, good⟩ := exec_ppCommand i s hf
  rw [e]
  rcases ppComplete_busy_cases hb with ⟨c, h⟩ | ⟨c, u, he, h⟩
  · exact ⟨c, s, h, sameButCommandState_refl s, .inl rfl⟩
  · obtain ⟨hsame, hcode⟩ := good c u he
    exact ⟨c, u, h, hsame, .inr hcode⟩

/-- Settles O34: the completion writes two fields and an event, the effect before it command state only. -/
theorem everyCommandCompletes : Obligations.EveryCommandCompletes := by
  intro i s hf hb
  obtain ⟨c, u, e, hsame, -⟩ := exec_ppCommand_completed hf hb
  unfold sameButCommandState at hsame
  refine ⟨_, e, rfl, ?_⟩
  rw [hsame]
  and_intros <;> rfl

/-- Settles O35: a finished effect has no error code, so an error leaves the state as it was. -/
theorem commandErrorsHaveNoOtherEffect : Obligations.CommandErrorsHaveNoOtherEffect := by
  intro i s t hf hb h hmin hmax
  obtain ⟨c, u, e, -, hcode⟩ := exec_ppCommand_completed hf hb
  obtain rfl := Host.Outcome.next.inj (h.symm.trans e)
  have hc : (u.completed c).ppResult = c := rfl
  rw [hc] at hmin hmax ⊢
  obtain rfl | hz | hbig := hcode
  · rfl
  · omega
  · omega

end Sys2Proof.Machine
end

section
/-! Operand checks (44_pp_build R222 step 1, R115) as bounds on the operands, and the two commands that write no
memory (R224, R225). -/

namespace Sys2Proof.Machine

theorem fits16_iff (v : Word) : fits16 v = true ↔ v.toNat < 0x10000 := by
  have hv := v.isLt
  rw [fits16, beq_iff_eq, ← BitVec.toNat_inj, toNat_extractLsb'_eq, BitVec.toNat_ofNat]
  omega

theorem fits8_iff (v : Word) : fits8 v = true ↔ v.toNat < 0x100 := by
  have hv := v.isLt
  rw [fits8, beq_iff_eq, ← BitVec.toNat_inj, toNat_extractLsb'_eq, BitVec.toNat_ofNat]
  omega

theorem fits16_eq_decide (v : Word) : fits16 v = decide (v.toNat < 0x10000) :=
  Bool.eq_iff_iff.2 ((fits16_iff v).trans decide_eq_true_iff.symm)

theorem fits8_eq_decide (v : Word) : fits8 v = decide (v.toNat < 0x100) :=
  Bool.eq_iff_iff.2 ((fits8_iff v).trans decide_eq_true_iff.symm)

section
variable {bad : Bool} {P : Prop} (h : bad = true ↔ P)
include h

/-- A check that fails on the condition `P`. -/
theorem badArgIf_of (hP : P) : badArgIf bad = some .errBadArg := if_pos (h.2 hP)

/-- A check that passes off the condition `P`. -/
theorem badArgIf_of_not (hP : ¬P) : badArgIf bad = none := if_neg (mt h.1 hP)

end

/-! ## `NOP` and `CKSUM` -/

theorem cksum_badArg_iff (s : State) :
    (decide (s.p.p1.toNat > 0xFFFF) || !fits16 s.p.p2) = true ↔ 0xFFFF < s.p.p1.toNat ∨ 0x10000 ≤ s.p.p2.toNat := by
  simp [fits16_eq_decide]

/-- The complement of a half, as an output. -/
theorem setWidth_not_half (v : Half) : (~~~v).setWidth 32 = BitVec.ofNat 32 (0xFFFF - v.toNat) := by
  apply BitVec.eq_of_toNat_eq
  rw [BitVec.toNat_setWidth, BitVec.toNat_not, BitVec.toNat_ofNat]

theorem cksumEffect_eq {s : State} {sum : Half}
    (hsum : sum = ocsum (loadBytes s.mem s.p.p0 s.p.p1.toNat) (s.p.p2.extractLsb' 0 16)) :
    cksumEffect s = .done .ok { s with
      p := { s.p with p6 := sum.setWidth 32, p7 := BitVec.ofNat 32 (0xFFFF - sum.toNat) } } := by
  rw [hsum, ← setWidth_not_half]
  rfl

/-- Settles O38, by the outcomes of R222 in their order. -/
theorem nopAndCksumCommands : Obligations.NopAndCksumCommands := by
  intro s hb
  refine ⟨ppComplete_of_done hb rfl (admitted_zero _ _) rfl, fun hbad => ?_, fun h1 h2 ha => ?_,
    fun h1 h2 ha sum hsum => ?_⟩
  · exact ppComplete_of_check hb (badArgIf_of (cksum_badArg_iff s) hbad)
  · exact ppComplete_of_not_admitted hb (badArgIf_of_not (cksum_badArg_iff s) (by omega)) ha
  · exact ppComplete_of_done hb (badArgIf_of_not (cksum_badArg_iff s) (by omega)) ha (cksumEffect_eq hsum)

end Sys2Proof.Machine
end

section
/-! Fields and byte lists in memory (20_memory R81, R84): adjacent stores as one store, reads in parts, ranges that a
store does not reach, and a field that carries the checksum of what it stands in (R229 to R232). -/

namespace Sys2Proof.Machine

/-! ## The bytes of fields -/

@[simp] theorem length_beBytes2 (v : Half) : (beBytes2 v).length = 2 := rfl

@[simp] theorem length_beBytes4 (v : Word) : (beBytes4 v).length = 4 := rfl

@[simp] theorem length_macBytes (v : Mac) : (macBytes v).length = 6 := rfl

/-- A MAC address in wire order is its `HI` and `LO` registers (R14). -/
theorem macBytes_macOf (hi : Half) (lo : Word) : macBytes (macOf hi lo) = beBytes2 hi ++ beBytes4 lo := by
  have hmac : (hi ++ lo).toNat = hi.toNat * 2 ^ 32 + lo.toNat := toNat_append_eq_add hi lo
  have hlo := lo.isLt
  simp only [macBytes, macOf, beBytes2, beBytes4, List.cons_append, List.nil_append, List.cons.injEq, and_true,
    ← BitVec.toNat_inj, toNat_extractLsb'_eq, hmac]
  omega

theorem lowByte_append {n : Nat} (x : BitVec n) (b : Byte) : (x ++ b).extractLsb' 0 8 = b := by
  rw [BitVec.extractLsb'_append_eq_of_add_le (by decide), BitVec.extractLsb'_eq_self]

theorem upperByte_append {n start : Nat} (x : BitVec n) (b : Byte) :
    (x ++ b).extractLsb' (start + 8) 8 = x.extractLsb' start 8 := by
  rw [BitVec.extractLsb'_append_eq_of_le (by omega), Nat.add_sub_cancel]

/-- Reading an IPv4 address and writing it moves its four bytes. -/
theorem beBytes4_loadBe32 (m : Memory) (a : Word) : beBytes4 (loadBe32 m a) = loadBytes m a 4 := by
  simp only [beBytes4, loadBe32, load8, loadBytes, BitVec.add_assoc, BitVec.reduceAdd, lowByte_append, upperByte_append,
    BitVec.extractLsb'_eq_self]

/-- Reading a MAC address and writing it moves its six bytes. -/
theorem macBytes_loadMac (m : Memory) (a : Word) : macBytes (loadMac m a) = loadBytes m a 6 := by
  simp only [macBytes, loadMac, load8, loadBytes, BitVec.add_assoc, BitVec.reduceAdd, lowByte_append, upperByte_append,
    BitVec.extractLsb'_eq_self]

/-! ## Adjacent stores and reads -/

/-- A store right behind another extends it. -/
theorem storeBytes_adjacent {m : Memory} {a b : Word} {bs : List Byte} (h : b = a + BitVec.ofNat 32 bs.length)
    (cs : List Byte) : storeBytes (storeBytes m a bs) b cs = storeBytes m a (bs ++ cs) := by
  rw [storeBytes_append, h]

/-- A range reads as two lists one after the other exactly when its two parts do. -/
theorem loadBytes_eq_append_iff {m : Memory} {a b : Word} {x y : List Byte} {n k : Nat} (hn : n = x.length)
    (hb : b = a + BitVec.ofNat 32 n) :
    loadBytes m a (n + k) = x ++ y ↔ loadBytes m a n = x ∧ loadBytes m b k = y := by
  rw [loadBytes_append, ← hb]
  exact ⟨fun h => List.append_inj h ((length_loadBytes m a n).trans hn), fun ⟨hx, hy⟩ => by rw [hx, hy]⟩

/-! ## Ranges apart -/

/-- Two ranges at offsets of one base share no byte when one ends before the other begins. -/
theorem apart_of_offsets {f a b : Word} {x y n k : Nat} (ha : a = f + BitVec.ofNat 32 x)
    (hb : b = f + BitVec.ofNat 32 y) (hx : x + n ≤ 2 ^ 32) (hy : y + k ≤ 2 ^ 32) (h : x + n ≤ y ∨ y + k ≤ x) :
    apart a n b k := by
  subst ha hb
  intro i hi j hj e
  rw [BitVec.add_assoc, BitVec.add_assoc, BitVec.add_right_inj, ← BitVec.ofNat_add, ← BitVec.ofNat_add] at e
  have e := congrArg BitVec.toNat e
  simp only [BitVec.toNat_ofNat] at e
  omega

theorem loadBytes_of_sameOutside {m m' : Memory} {a b : Word} {n k : Nat} (h : sameOutside m m' a n)
    (ha : apart a n b k) : loadBytes m' b k = loadBytes m b k :=
  loadBytes_congr b k fun j hj => h _ fun i hi e => ha i hi j hj (BitVec.eq_of_toNat_eq e).symm

theorem sameOutside_storeBytes_self (m : Memory) (a : Word) (bs : List Byte) :
    sameOutside m (storeBytes m a bs) a bs.length := fun x hx => loadByte_storeBytes_ne m a bs x hx

/-! ## A field written inside what stands there already -/

/-- The list `v` takes the place of `w` inside a range that is read. -/
theorem loadBytes_overwrite {m : Memory} (hm : memoryWf m = true) {a b : Word} {d w e v : List Byte} {n : Nat}
    (h : loadBytes m a n = d ++ w ++ e) (hv : v.length = w.length) (hl : n ≤ 2 ^ 32)
    (hb : b = a + BitVec.ofNat 32 d.length) : loadBytes (storeBytes m b v) a n = d ++ v ++ e := by
  have hn : n = d.length + (v.length + e.length) := by
    have := congrArg List.length h
    simp only [length_loadBytes, List.length_append] at this
    omega
  rw [hn, List.append_assoc] at h ⊢
  obtain ⟨hd, hwe⟩ := (loadBytes_eq_append_iff rfl hb).1 h
  obtain ⟨-, he⟩ := (loadBytes_eq_append_iff hv rfl).1 hwe
  have hbe : b + BitVec.ofNat 32 v.length = a + BitVec.ofNat 32 (d.length + v.length) := by
    rw [hb, BitVec.add_assoc, BitVec.ofNat_add]
  have hbefore : apart b v.length a d.length :=
    apart_of_offsets (y := 0) hb (BitVec.add_zero a).symm (by omega) (by omega) (by omega)
  have hafter : apart b v.length (b + BitVec.ofNat 32 v.length) e.length :=
    apart_of_offsets hb hbe (by omega) (by omega) (by omega)
  rw [loadBytes_eq_append_iff rfl hb, loadBytes_eq_append_iff rfl rfl]
  refine ⟨?_, loadBytes_storeBytes m hm b v (by omega), ?_⟩
  · rw [loadBytes_storeBytes_of_apart m hbefore, hd]
  · rw [loadBytes_storeBytes_of_apart m hafter, he]

theorem memoryWf_putCksum {m : Memory} (hm : memoryWf m = true) (field a : Word) (n : Nat) :
    memoryWf (putCksum field a n m) = true := memoryWf_putBe16 hm _ _

/-- Filling a checksum field that is zero beforehand (R229). -/
theorem loadBytes_putCksum {m : Memory} (hm : memoryWf m = true) {a field : Word} {d e : List Byte} {n : Nat}
    (h : loadBytes m a n = d ++ [0#8, 0#8] ++ e) (hl : n ≤ 2 ^ 32) (hf : field = a + BitVec.ofNat 32 d.length) :
    loadBytes (putCksum field a n m) a n = d ++ beBytes2 (cksumOf (d ++ [0#8, 0#8] ++ e) 0#16) ++ e := by
  rw [putCksum, h]
  exact loadBytes_overwrite hm h rfl hl hf

/-! ## A list built at an address -/

/-- From `m` to `m'` the list `bs` has been written at `a`, and nothing else (the frame of R226 to R232). -/
structure Built (m m' : Memory) (a : Word) (bs : List Byte) : Prop where
  reads : loadBytes m' a bs.length = bs
  frame : sameOutside m m' a bs.length
  wf : memoryWf m' = true

theorem built_storeBytes {m : Memory} (hm : memoryWf m = true) (a : Word) {bs : List Byte} (hl : bs.length ≤ 2 ^ 32) :
    Built m (storeBytes m a bs) a bs :=
  ⟨loadBytes_storeBytes m hm a bs hl, sameOutside_storeBytes_self m a bs, memoryWf_storeBytes hm a bs⟩

/-- What stands behind the list is as it was. -/
theorem Built.reads_behind {m m' : Memory} {a b : Word} {bs : List Byte} {n : Nat} (h : Built m m' a bs)
    (hl : bs.length + n ≤ 2 ^ 32) (hb : b = a + BitVec.ofNat 32 bs.length) :
    loadBytes m' a (bs.length + n) = bs ++ loadBytes m b n := by
  have hapart : apart a bs.length b n :=
    apart_of_offsets (x := 0) (BitVec.add_zero a).symm hb (by omega) (by omega) (by omega)
  exact (loadBytes_eq_append_iff rfl hb).2 ⟨h.reads, loadBytes_of_sameOutside h.frame hapart⟩

/-- A field of a built list is written again. -/
theorem Built.overwrite {m m' : Memory} {a b : Word} {d w e v : List Byte} (h : Built m m' a (d ++ w ++ e))
    (hv : v.length = w.length) (hl : (d ++ w ++ e).length ≤ 2 ^ 32) (hb : b = a + BitVec.ofNat 32 d.length) :
    Built m (storeBytes m' b v) a (d ++ v ++ e) := by
  have hlen : (d ++ v ++ e).length = (d ++ w ++ e).length := by simp only [List.length_append, hv]
  refine ⟨?_, ?_, memoryWf_storeBytes h.wf b v⟩ <;> rw [hlen]
  · exact loadBytes_overwrite h.wf h.reads hv hl hb
  · refine sameOutside_storeBytes h.frame b v ?_
    simp only [List.length_append] at hl ⊢
    rw [hb, add_sub_cancel_left, BitVec.toNat_ofNat]
    have := Nat.mod_le d.length (2 ^ 32)
    omega

/-- A header with its checksum field filled from the header and what stands behind it (R229, R230). -/
theorem Built.putCksum {m m' : Memory} {a b field : Word} {d e : List Byte} {n k : Nat}
    (h : Built m m' a (d ++ [0#8, 0#8] ++ e)) (hn : n = (d ++ [0#8, 0#8] ++ e).length + k) (hl : n ≤ 2 ^ 32)
    (hf : field = a + BitVec.ofNat 32 d.length) (hb : b = a + BitVec.ofNat 32 (d ++ [0#8, 0#8] ++ e).length) :
    Built m (putCksum field a n m') a
      (d ++ beBytes2 (cksumOf (d ++ [0#8, 0#8] ++ (e ++ loadBytes m b k)) 0#16) ++ e) := by
  have hread : loadBytes m' a n = d ++ [0#8, 0#8] ++ (e ++ loadBytes m b k) := by
    rw [hn, h.reads_behind (hn ▸ hl) hb, List.append_assoc _ e]
  rw [Machine.putCksum, hread]
  exact h.overwrite rfl (by omega) hf

/-- The checksum over a built header and what stands behind it, when its field holds that checksum (R229, R230). -/
theorem Built.verifies {m m' : Memory} {a b : Word} {d e : List Byte} {c : Half} {n k : Nat}
    (h : Built m m' a (d ++ beBytes2 c ++ e)) (hc : c = cksumOf (d ++ [0#8, 0#8] ++ (e ++ loadBytes m b k)) 0#16)
    (hd : d.length % 2 = 0) (hn : n = (d ++ beBytes2 c ++ e).length + k) (hl : n ≤ 2 ^ 32)
    (hb : b = a + BitVec.ofNat 32 (d ++ beBytes2 c ++ e).length) : cksumOf (loadBytes m' a n) 0#16 = 0#16 := by
  rw [hn, h.reads_behind (hn ▸ hl) hb, List.append_assoc _ e, hc]
  exact checksummedHeadersVerify d _ hd

end Sys2Proof.Machine
end

section
/-! The header commands as byte lists: what each writes at its place in the frame (44_pp_build R226 to R230, R232). -/

namespace Sys2Proof.Machine

/-! ## `ETH_HDR` (R226) -/

/-- An Ethernet II header (R116). -/
def ethHdrBytes (dst src : Mac) (etherType : Half) : List Byte := macBytes dst ++ macBytes src ++ beBytes2 etherType

theorem putEthHdr_eq (f : Word) (dst src : Mac) (etherType : Half) (m : Memory) :
    putEthHdr f dst src etherType m = storeBytes m f (ethHdrBytes dst src etherType) := by
  simp only [putEthHdr, putMac, putBe16, ethHdrBytes, storeBytes_append, List.length_append, length_macBytes]

theorem macBytes_station (s : State) : macBytes (station s) = beBytes2 s.machi ++ beBytes4 s.maclo :=
  macBytes_macOf s.machi s.maclo

theorem built_putEthHdr {m : Memory} (hm : memoryWf m = true) (f : Word) (dst src : Mac) (etherType : Half) :
    Built m (putEthHdr f dst src etherType m) f (ethHdrBytes dst src etherType) := by
  rw [putEthHdr_eq]
  exact built_storeBytes hm f (by simp [ethHdrBytes])

theorem ethHdr_badArg_iff (s : State) :
    (!fits16 s.p.p2 || !fits16 s.p.p3) = true ↔ 0x10000 ≤ s.p.p2.toNat ∨ 0x10000 ≤ s.p.p3.toNat := by
  simp [fits16_eq_decide]

/-! ## `ARP_REQ` and `ARP_REPLY` (R227, R228) -/

/-- A whole ARP frame from the station (R116). -/
def arpFrameBytes (s : State) (dst : Mac) (oper : Half) (tha : Mac) (tpa : Word) : List Byte :=
  ethHdrBytes dst (station s) 0x0806#16 ++ [0#8, 1#8, 0x08#8, 0#8, 6#8, 4#8] ++ beBytes2 oper ++
    macBytes (station s) ++ beBytes4 s.ip4Addr ++ macBytes tha ++ beBytes4 tpa

/-- The fields of the frame are stored one behind the other. -/
theorem putArpFrame_eq (s : State) (dst : Mac) (oper : Half) (tha : Mac) (tpa : Word) (m : Memory) :
    putArpFrame s dst oper tha tpa m = storeBytes m (frameBase s) (arpFrameBytes s dst oper tha tpa) := by
  simp only [putArpFrame, putEthHdr, put8, putMac, putBe16, putBe32, arpFrameBytes, ethHdrBytes, storeBytes, macBytes,
    beBytes2, beBytes4, List.cons_append, List.nil_append, BitVec.add_assoc, BitVec.reduceAdd]
  rfl

theorem built_putArpFrame {s : State} (hm : memoryWf s.mem = true) (dst : Mac) (oper : Half) (tha : Mac) (tpa : Word) :
    Built s.mem (putArpFrame s dst oper tha tpa s.mem) (frameBase s) (arpFrameBytes s dst oper tha tpa) := by
  rw [putArpFrame_eq]
  exact built_storeBytes hm _ (by simp [arpFrameBytes, ethHdrBytes])

theorem arpRequestBytes_eq (s : State) (tpa : Word) :
    arpFrameBytes s broadcastMac 1#16 0#48 tpa =
      [0xFF#8, 0xFF#8, 0xFF#8, 0xFF#8, 0xFF#8, 0xFF#8] ++ beBytes2 s.machi ++ beBytes4 s.maclo ++
        [0x08#8, 0x06#8, 0#8, 1#8, 0x08#8, 0#8, 6#8, 4#8, 0#8, 1#8] ++ beBytes2 s.machi ++ beBytes4 s.maclo ++
        beBytes4 s.ip4Addr ++ [0#8, 0#8, 0#8, 0#8, 0#8, 0#8] ++ beBytes4 tpa := by
  rw [arpFrameBytes, ethHdrBytes, macBytes_station]
  rfl

theorem arpReplyBytes_eq (s : State) (hi : Half) (lo tpa : Word) :
    arpFrameBytes s (macOf hi lo) 2#16 (macOf hi lo) tpa =
      beBytes2 hi ++ beBytes4 lo ++ beBytes2 s.machi ++ beBytes4 s.maclo ++
        [0x08#8, 0x06#8, 0#8, 1#8, 0x08#8, 0#8, 6#8, 4#8, 0#8, 2#8] ++ beBytes2 s.machi ++ beBytes4 s.maclo ++
        beBytes4 s.ip4Addr ++ beBytes2 hi ++ beBytes4 lo ++ beBytes4 tpa := by
  rw [arpFrameBytes, ethHdrBytes, macBytes_station, macBytes_macOf]
  rfl

theorem arpReply_badArg_iff (s : State) : (!fits16 s.p.p3) = true ↔ 0x10000 ≤ s.p.p3.toNat := by
  simp [fits16_eq_decide]

/-! ## `IP4_HDR` (R229) -/

/-- A constant and an operand, added as words. -/
theorem ofNat_add_toNat (k : Nat) (v : Word) : BitVec.ofNat 32 (k + v.toNat) = BitVec.ofNat 32 k + v := by
  rw [BitVec.ofNat_add, BitVec.ofNat_toNat, BitVec.setWidth_eq]

/-- The IPv4 header before its checksum field. -/
def ip4HdrFirst (s : State) : List Byte :=
  [0x45#8, 0#8] ++ beBytes2 (BitVec.ofNat 16 (20 + s.p.p3.toNat)) ++
    [0#8, 0#8, 0#8, 0#8, s.ip4Ttl, s.p.p2.extractLsb' 0 8]

/-- The IPv4 header behind its checksum field. -/
def ip4HdrLast (s : State) : List Byte := beBytes4 s.ip4Addr ++ beBytes4 s.p.p1

/-- The fields of the header are stored one behind the other. -/
theorem putIp4Hdr_eq (s : State) (m : Memory) :
    putIp4Hdr s m = storeBytes m (frameBase s + 14#32) (ip4HdrFirst s ++ [0#8, 0#8] ++ ip4HdrLast s) := by
  simp only [putIp4Hdr, put8, putBe16, putBe32, ip4HdrFirst, ip4HdrLast, storeBytes, beBytes2, beBytes4,
    List.cons_append, List.nil_append, BitVec.add_assoc, BitVec.reduceAdd]
  rfl

/-- The checksum of the header, its field taken as zero. -/
def ip4HdrCksum (s : State) : Half := cksumOf (ip4HdrFirst s ++ [0#8, 0#8] ++ ip4HdrLast s) 0#16

theorem built_ip4Hdr {s : State} (hm : memoryWf s.mem = true) :
    Built s.mem (putCksum (frameBase s + 24#32) (frameBase s + 14#32) 20 (putIp4Hdr s s.mem)) (frameBase s + 14#32)
      (ip4HdrFirst s ++ beBytes2 (ip4HdrCksum s) ++ ip4HdrLast s) := by
  rw [putIp4Hdr_eq]
  have hblank := built_storeBytes hm (frameBase s + 14#32) (bs := ip4HdrFirst s ++ [0#8, 0#8] ++ ip4HdrLast s)
    (by simp [ip4HdrFirst, ip4HdrLast])
  exact hblank.putCksum (k := 0) rfl (by decide) (by simp [ip4HdrFirst, BitVec.add_assoc]) rfl

theorem ip4HdrEffect_eq (s : State) :
    ip4HdrEffect s = .done .ok { s with
      mem := putCksum (frameBase s + 24#32) (frameBase s + 14#32) 20 (putIp4Hdr s s.mem)
      p := { s.p with p6 := BitVec.ofNat 32 (20 + s.p.p3.toNat), p7 := BitVec.ofNat 32 (34 + s.p.p3.toNat) } } := by
  rw [ofNat_add_toNat, ofNat_add_toNat]
  rfl

theorem ip4Hdr_badArg_iff (s : State) :
    (!fits8 s.p.p2 || decide (s.p.p3.toNat > 1480)) = true ↔ 0x100 ≤ s.p.p2.toNat ∨ 1480 < s.p.p3.toNat := by
  simp [fits8_eq_decide]

/-! ## `ICMP_ECHO_REQ` (R230) -/

/-- Identifier and sequence number. -/
def echoIds (s : State) : List Byte := beBytes2 (s.p.p1.extractLsb' 0 16) ++ beBytes2 (s.p.p2.extractLsb' 0 16)

/-- The data bytes the host has placed. -/
def echoData (s : State) : List Byte := loadBytes s.mem (frameBase s + 42#32) s.p.p3.toNat

/-- The checksum of the message, its field taken as zero. -/
def echoReqCksum (s : State) : Half := cksumOf ([8#8, 0#8] ++ [0#8, 0#8] ++ (echoIds s ++ echoData s)) 0#16

/-- The echo header with its checksum field zero. -/
def echoReqBlank (s : State) : Memory :=
  storeBytes s.mem (frameBase s + 34#32) ([8#8, 0#8] ++ [0#8, 0#8] ++ echoIds s)

/-- The memory `ICMP_ECHO_REQ` leaves. -/
def echoReqMem (s : State) : Memory :=
  putCksum (frameBase s + 36#32) (frameBase s + 34#32) (8 + s.p.p3.toNat) (echoReqBlank s)

theorem icmpEchoReqEffect_eq (s : State) :
    icmpEchoReqEffect s = .done .ok { s with
      mem := echoReqMem s
      p := { s.p with p7 := BitVec.ofNat 32 (8 + s.p.p3.toNat) } } := by
  rw [ofNat_add_toNat]
  simp only [icmpEchoReqEffect, icmpEchoReqLen, echoReqMem, echoReqBlank, echoIds, put8, putBe16, storeBytes, beBytes2,
    List.cons_append, List.nil_append, BitVec.add_assoc, BitVec.reduceAdd]
  rfl

theorem built_echoReq {s : State} (hm : memoryWf s.mem = true) (hn : s.p.p3.toNat ≤ 1472) :
    Built s.mem (echoReqMem s) (frameBase s + 34#32) ([8#8, 0#8] ++ beBytes2 (echoReqCksum s) ++ echoIds s) :=
  (built_storeBytes hm (frameBase s + 34#32) (by simp [echoIds])).putCksum rfl (by omega)
    (by simp [BitVec.add_assoc]) (by simp [echoIds, BitVec.add_assoc])

theorem icmpEchoReq_badArg_iff (s : State) :
    (!fits16 s.p.p1 || !fits16 s.p.p2 || decide (s.p.p3.toNat > 1472)) = true ↔
      0x10000 ≤ s.p.p1.toNat ∨ 0x10000 ≤ s.p.p2.toNat ∨ 1472 < s.p.p3.toNat := by
  simp [fits16_eq_decide, or_assoc]

/-! ## `UDP_HDR` (R232) -/

theorem slotPort_eq {s : State} {k : Fin 8} (h : k.val = s.p.p1.toNat) : slotPort s s.p.p1.toNat = s.udpPort[k] := by
  rw [← h]
  exact dif_pos k.isLt

/-- The UDP header before its checksum field: the ports and the length. -/
def udpFields (s : State) : List Byte :=
  beBytes2 (slotPort s s.p.p1.toNat) ++ beBytes2 (s.p.p2.extractLsb' 0 16) ++ beBytes2 (udpLenField s)

/-- The fields of the header are stored one behind the other. -/
theorem putUdpHdr_eq (s : State) (m : Memory) :
    putUdpHdr s m = storeBytes m (frameBase s + 34#32) (udpFields s ++ [0#8, 0#8]) := by
  simp only [putUdpHdr, putBe16, udpFields, storeBytes, beBytes2, List.cons_append, List.nil_append, BitVec.add_assoc,
    BitVec.reduceAdd]
  rfl

theorem built_putUdpHdr {s : State} (hm : memoryWf s.mem = true) :
    Built s.mem (putUdpHdr s s.mem) (frameBase s + 34#32) (udpFields s ++ [0#8, 0#8]) := by
  rw [putUdpHdr_eq]
  exact built_storeBytes hm _ (by simp [udpFields])

/-- The checksum over pseudo-header, header and payload, its field taken as zero. -/
def udpSum (s : State) : Half :=
  cksumOf (pseudoHeader s.ip4Addr s.p.p4 (udpLenField s) ++ (udpFields s ++ [0#8, 0#8] ++
    loadBytes s.mem (frameBase s + 42#32) s.p.p3.toNat)) 0#16

theorem udpCksum_eq {s : State} (hm : memoryWf s.mem = true) (hn : s.p.p3.toNat ≤ 1472) :
    udpCksum s (putUdpHdr s s.mem) = if udpSum s = 0#16 then 0xFFFF#16 else udpSum s := by
  have hread : loadBytes (putUdpHdr s s.mem) (frameBase s + 34#32) (8 + s.p.p3.toNat) =
      udpFields s ++ [0#8, 0#8] ++ loadBytes s.mem (frameBase s + 42#32) s.p.p3.toNat :=
    (built_putUdpHdr hm).reads_behind (by simp [udpFields]; omega) (by simp [udpFields, BitVec.add_assoc])
  rw [udpCksum, hread]
  rfl

/-- The memory `UDP_HDR` leaves, in both forms. -/
def udpHdrMem (csum : Bool) (s : State) : Memory :=
  if csum then putBe16 (frameBase s + 40#32) (udpCksum s (putUdpHdr s s.mem)) (putUdpHdr s s.mem) else putUdpHdr s s.mem

theorem built_udpHdr {s : State} (hm : memoryWf s.mem = true) (hn : s.p.p3.toNat ≤ 1472) (csum : Bool) :
    Built s.mem (udpHdrMem csum s) (frameBase s + 34#32)
      (udpFields s ++ if csum then beBytes2 (if udpSum s = 0#16 then 0xFFFF#16 else udpSum s) else [0#8, 0#8]) := by
  cases csum with
  | false => exact built_putUdpHdr hm
  | true =>
    rw [← udpCksum_eq hm hn]
    have hblank : Built s.mem (putUdpHdr s s.mem) (frameBase s + 34#32) (udpFields s ++ [0#8, 0#8] ++ []) := by
      rw [List.append_nil]
      exact built_putUdpHdr hm
    have h := hblank.overwrite (b := frameBase s + 40#32) (v := beBytes2 (udpCksum s (putUdpHdr s s.mem))) rfl
      (by simp [udpFields]) (by simp [udpFields, BitVec.add_assoc])
    rwa [List.append_nil] at h

theorem udpHdrEffect_eq (csum : Bool) (s : State) :
    udpHdrEffect csum s = .done .ok { s with
      mem := udpHdrMem csum s
      p := { s.p with p7 := BitVec.ofNat 32 (8 + s.p.p3.toNat) } } := by
  rw [ofNat_add_toNat]
  rfl

theorem udpHdrLen_eq (csum : Bool) (s : State) : udpHdrLen csum s = if csum then 8 + s.p.p3.toNat else 8 := by
  cases csum <;> rfl

theorem udpHdr_badArg_iff (s : State) :
    (decide (s.p.p1.toNat ≥ 8) || !fits16 s.p.p2 || decide (s.p.p3.toNat > 1472)) = true ↔
      8 ≤ s.p.p1.toNat ∨ 0x10000 ≤ s.p.p2.toNat ∨ 1472 < s.p.p3.toNat := by
  simp [fits16_eq_decide, or_assoc]

theorem udpHdrCheck_of_badArg {s : State} (h : 8 ≤ s.p.p1.toNat ∨ 0x10000 ≤ s.p.p2.toNat ∨ 1472 < s.p.p3.toNat) :
    udpHdrCheck s = some .errBadArg := if_pos ((udpHdr_badArg_iff s).2 h)

theorem udpHdrCheck_of_slot {s : State} {k : Fin 8} (hk : k.val = s.p.p1.toNat) (h2 : s.p.p2.toNat < 0x10000)
    (h3 : s.p.p3.toNat ≤ 1472) : udpHdrCheck s = if s.udpPort[k] = 0#16 then some .errUnbound else none := by
  rw [← slotPort_eq hk]
  exact if_neg (mt (udpHdr_badArg_iff s).1 (by omega))

end Sys2Proof.Machine
end

section
/-! The statements about the header commands that build a frame from operands (44_pp_build R226 to R230, R232): the
checks in the order of R222, then the bytes. -/

namespace Sys2Proof.Machine

/-- Settles O39, by the outcomes of R222 in their order. -/
theorem ethernetHeaderIsBuilt : Obligations.EthernetHeaderIsBuilt := by
  intro s hm hb
  refine ⟨fun hbad => ?_, fun h2 h3 ha => ?_, fun h2 h3 ha => ?_⟩
  · exact ppComplete_of_check hb (badArgIf_of (ethHdr_badArg_iff s) hbad)
  · exact ppComplete_of_not_admitted hb (badArgIf_of_not (ethHdr_badArg_iff s) (by omega)) ha
  · have h := built_putEthHdr hm s.p.p0 (macOf (lo16 s.p.p2) s.p.p1) (station s) (lo16 s.p.p3)
    rw [ethHdrBytes, macBytes_macOf, macBytes_station] at h
    exact ⟨_, ppComplete_of_done hb (badArgIf_of_not (ethHdr_badArg_iff s) (by omega)) ha rfl, h.reads, h.frame, h.wf⟩

/-- Settles O40: both commands write the one frame, with their own operands. -/
theorem arpFramesAreBuilt : Obligations.ArpFramesAreBuilt := by
  intro s hm hb
  refine ⟨fun ha => ?_, fun ha => ?_, fun hbad => ?_, fun h3 ha => ?_, fun h3 ha => ?_⟩
  · exact ppComplete_of_not_admitted hb rfl ha
  · have h := built_putArpFrame hm broadcastMac 1#16 0#48 s.p.p1
    rw [arpRequestBytes_eq] at h
    exact ⟨_, ppComplete_of_done hb rfl ha rfl, h.reads, h.frame, h.wf⟩
  · exact ppComplete_of_check hb (badArgIf_of (arpReply_badArg_iff s) hbad)
  · exact ppComplete_of_not_admitted hb (badArgIf_of_not (arpReply_badArg_iff s) (by omega)) ha
  · have h := built_putArpFrame hm (macOf (lo16 s.p.p3) s.p.p2) 2#16 (macOf (lo16 s.p.p3) s.p.p2) s.p.p1
    rw [arpReplyBytes_eq] at h
    exact ⟨_, ppComplete_of_done hb (badArgIf_of_not (arpReply_badArg_iff s) (by omega)) ha rfl, h.reads, h.frame, h.wf⟩

/-- Settles O41: the checksum is taken over the header alone. -/
theorem ip4HeaderIsBuilt : Obligations.Ip4HeaderIsBuilt := by
  intro s hm hb
  refine ⟨fun hbad => ?_, fun h2 h3 ha => ?_, fun h2 h3 ha first last hfirst hlast => ?_⟩
  · exact ppComplete_of_check hb (badArgIf_of (ip4Hdr_badArg_iff s) hbad)
  · exact ppComplete_of_not_admitted hb (badArgIf_of_not (ip4Hdr_badArg_iff s) (by omega)) ha
  · obtain rfl : first = ip4HdrFirst s := hfirst
    obtain rfl : last = ip4HdrLast s := hlast
    have h := built_ip4Hdr hm
    exact ⟨_, ppComplete_of_done hb (badArgIf_of_not (ip4Hdr_badArg_iff s) (by omega)) ha (ip4HdrEffect_eq s), h.reads,
      h.verifies (k := 0) rfl (by simp [ip4HdrFirst]) rfl (by decide) rfl, h.frame, h.wf⟩

/-- Settles O42: the checksum is taken over the header and the data behind it. -/
theorem echoRequestIsBuilt : Obligations.EchoRequestIsBuilt := by
  intro s hm hb
  refine ⟨fun hbad => ?_, fun h1 h2 h3 ha => ?_, fun h1 h2 h3 ha ids data hids hdata => ?_⟩
  · exact ppComplete_of_check hb (badArgIf_of (icmpEchoReq_badArg_iff s) hbad)
  · exact ppComplete_of_not_admitted hb (badArgIf_of_not (icmpEchoReq_badArg_iff s) (by omega)) ha
  · obtain rfl : ids = echoIds s := hids
    obtain rfl : data = echoData s := hdata
    have h := built_echoReq hm h3
    exact ⟨_, ppComplete_of_done hb (badArgIf_of_not (icmpEchoReq_badArg_iff s) (by omega)) ha (icmpEchoReqEffect_eq s),
      h.reads, h.verifies rfl rfl rfl (by omega) (by simp [echoIds, BitVec.add_assoc]), h.frame, h.wf⟩

/-- Settles O44, by the checks in their order; the form matters to the footprint and to the checksum field alone. -/
theorem udpHeaderIsBuilt : Obligations.UdpHeaderIsBuilt := by
  intro s csum n foot hm hb hn hfoot
  subst hn
  rw [← udpHdrLen_eq] at hfoot
  subst hfoot
  refine ⟨fun hbad => ppComplete_of_check hb (udpHdrCheck_of_badArg hbad), fun k hk h2 h3 => ?_⟩
  have hcheck := udpHdrCheck_of_slot hk h2 h3
  refine ⟨fun hport => ?_, fun hport ha => ?_, fun hport ha fields pseudo sum hfields hpseudo hsum => ?_⟩
  · exact ppComplete_of_check hb (hcheck.trans (if_pos hport))
  · exact ppComplete_of_not_admitted hb (hcheck.trans (if_neg hport)) ha
  · rw [← slotPort_eq hk] at hfields
    obtain rfl : fields = udpFields s := hfields
    obtain rfl : sum = udpSum s := by rw [hsum, hpseudo, List.append_assoc, List.append_assoc]; rfl
    have h := built_udpHdr hm h3 csum
    cases csum <;>
      exact ⟨_, ppComplete_of_done hb (hcheck.trans (if_neg hport)) ha (udpHdrEffect_eq _ s), h.reads, h.frame, h.wf⟩

end Sys2Proof.Machine
end

section
/-! `ICMP_ECHO_REPLY` (44_pp_build R231): the frame is turned round in place, with two checksum fields filled one after
the other. -/

namespace Sys2Proof.Machine

/-! ## A checksum field in memory -/

/-- The two bytes `d` behind `a` hold the checksum of the `d + 2 + e` bytes at `a`, taken with those two as zero. -/
def HoldsCksum (m : Memory) (a : Word) (d e : Nat) : Prop :=
  loadBytes m (a + BitVec.ofNat 32 d) 2 = beBytes2 (cksumOf
    (loadBytes m a d ++ [0#8, 0#8] ++ loadBytes m (a + BitVec.ofNat 32 (d + 2)) e) 0#16)

/-- A range is what stands before a field, the field, and what stands behind it. -/
theorem loadBytes_around_field (m : Memory) (a : Word) (d e : Nat) :
    loadBytes m a (d + 2 + e) =
      loadBytes m a d ++ loadBytes m (a + BitVec.ofNat 32 d) 2 ++ loadBytes m (a + BitVec.ofNat 32 (d + 2)) e := by
  rw [loadBytes_append, loadBytes_append]

/-- A range with its checksum in it sums up to zero (R15). -/
theorem HoldsCksum.verifies {m : Memory} {a : Word} {d e : Nat} (h : HoldsCksum m a d e) (hd : d % 2 = 0) :
    cksumOf (loadBytes m a (d + 2 + e)) 0#16 = 0#16 := by
  rw [loadBytes_around_field, h]
  exact checksummedHeadersVerify _ _ (by rw [length_loadBytes, hd])

/-- Filling a field that is zero. -/
theorem holdsCksum_putCksum {m : Memory} (hm : memoryWf m = true) {a field : Word} {d e n : Nat}
    (hf : field = a + BitVec.ofNat 32 d) (hn : n = d + 2 + e) (hl : n ≤ 2 ^ 32)
    (hz : loadBytes m field 2 = [0#8, 0#8]) : HoldsCksum (putCksum field a n m) a d e := by
  have hblank : loadBytes m a n =
      loadBytes m a d ++ [0#8, 0#8] ++ loadBytes m (a + BitVec.ofNat 32 (d + 2)) e := by
    rw [hn, loadBytes_around_field, ← hf, hz]
  have hfilled := loadBytes_putCksum (field := field) hm hblank hl (by rw [hf, length_loadBytes])
  rw [hn, loadBytes_around_field] at hfilled
  obtain ⟨hfront, hbehind⟩ := List.append_inj hfilled (by simp)
  obtain ⟨hbefore, hfield⟩ := List.append_inj hfront (by simp)
  rw [HoldsCksum, hn, hbefore, hbehind, hfield]

/-- The field goes on holding the checksum while the range reads the same. -/
theorem HoldsCksum.congr {m m' : Memory} {a : Word} {d e : Nat} (h : HoldsCksum m a d e)
    (he : loadBytes m' a (d + 2 + e) = loadBytes m a (d + 2 + e)) : HoldsCksum m' a d e := by
  rw [loadBytes_around_field, loadBytes_around_field] at he
  obtain ⟨hfront, hbehind⟩ := List.append_inj he (by simp)
  obtain ⟨hbefore, hfield⟩ := List.append_inj hfront (by simp)
  rw [HoldsCksum, hbefore, hbehind, hfield]
  exact h

/-! ## The frame turned round, in its steps -/

/-- The received sender's bytes and the station's, as Ethernet destination and source. -/
def replyMacs (s : State) : List Byte :=
  loadBytes s.mem (frameBase s + 6#32) 6 ++ beBytes2 s.machi ++ beBytes4 s.maclo

/-- The address of the block and the received source, as IPv4 source and destination. -/
def replyIps (s : State) : List Byte := beBytes4 s.ip4Addr ++ loadBytes s.mem (frameBase s + 26#32) 4

/-- The MAC addresses stand. -/
def replyMacsPut (s : State) : Memory := storeBytes s.mem (frameBase s) (replyMacs s)

/-- The MAC addresses and the time-to-live stand. -/
def replyTtlPut (s : State) : Memory := storeBytes (replyMacsPut s) (frameBase s + 22#32) [s.ip4Ttl]

/-- The addresses of both layers and the time-to-live stand. -/
def replyIpsPut (s : State) : Memory := storeBytes (replyTtlPut s) (frameBase s + 26#32) (replyIps s)

/-- The addresses of both layers, the time-to-live and a zero header checksum stand. -/
def replyIp4Blank (s : State) : Memory := storeBytes (replyIpsPut s) (frameBase s + 24#32) [0#8, 0#8]

/-- The Ethernet and IPv4 headers stand. -/
def replyIp4Summed (s : State) : Memory :=
  putCksum (frameBase s + 24#32) (frameBase s + 14#32) 20 (replyIp4Blank s)

/-- The Ethernet and IPv4 headers and the ICMP type stand. -/
def replyTypePut (s : State) : Memory := storeBytes (replyIp4Summed s) (frameBase s + 34#32) [0#8]

/-- All but the ICMP checksum stands, whose field is zero. -/
def replyIcmpBlank (s : State) : Memory := storeBytes (replyTypePut s) (frameBase s + 36#32) [0#8, 0#8]

theorem putEchoReply_eq (s : State) :
    putEchoReply s = putCksum (frameBase s + 36#32) (frameBase s + 34#32) (frameTotlen s - 20) (replyIcmpBlank s) := by
  have hmacs : putMac (frameBase s + 6#32) (station s)
      (putMac (frameBase s) (loadMac s.mem (frameBase s + 6#32)) s.mem) = replyMacsPut s := by
    rw [putMac, putMac, storeBytes_adjacent (by rfl), macBytes_loadMac, macBytes_station, replyMacsPut, replyMacs,
      List.append_assoc]
  have hips (m : Memory) : putBe32 (frameBase s + 30#32) (loadBe32 s.mem (frameBase s + 26#32))
      (putBe32 (frameBase s + 26#32) s.ip4Addr m) = storeBytes m (frameBase s + 26#32) (replyIps s) := by
    rw [putBe32, putBe32, storeBytes_adjacent (by simp [BitVec.add_assoc]), beBytes4_loadBe32, replyIps]
  rw [putEchoReply, hmacs, hips]
  rfl

/-! ## What each step leaves alone -/

theorem sameOutside_replyMacsPut (s : State) : sameOutside s.mem (replyMacsPut s) (frameBase s) 12 :=
  sameOutside_storeBytes_self s.mem (frameBase s) (replyMacs s)

theorem sameOutside_replyTtlPut (s : State) : sameOutside (replyMacsPut s) (replyTtlPut s) (frameBase s + 22#32) 1 :=
  sameOutside_storeBytes_self _ _ [s.ip4Ttl]

theorem sameOutside_replyIpsPut (s : State) : sameOutside (replyTtlPut s) (replyIpsPut s) (frameBase s + 26#32) 8 :=
  sameOutside_storeBytes_self _ _ (replyIps s)

/-- Both stores to the header checksum field. -/
theorem sameOutside_replyIp4Summed (s : State) :
    sameOutside (replyIpsPut s) (replyIp4Summed s) (frameBase s + 24#32) 2 :=
  sameOutside_putCksum (sameOutside_storeBytes_self _ _ [0#8, 0#8]) (by simp)

theorem sameOutside_replyTypePut (s : State) :
    sameOutside (replyIp4Summed s) (replyTypePut s) (frameBase s + 34#32) 1 :=
  sameOutside_storeBytes_self _ _ [0#8]

/-- Both stores to the ICMP checksum field. -/
theorem sameOutside_putEchoReply_icmp (s : State) :
    sameOutside (replyTypePut s) (putEchoReply s) (frameBase s + 36#32) 2 := by
  rw [putEchoReply_eq]
  exact sameOutside_putCksum (sameOutside_storeBytes_self _ _ [0#8, 0#8]) (by simp)

/-! ## Reads of the reply -/

/-- A read at one offset of a frame over a step that writes at another. -/
theorem loadBytes_at_offset {m m' : Memory} {f : Word} {x y n k : Nat} (h : sameOutside m m' (f + BitVec.ofNat 32 x) n)
    (hd : x + n ≤ y ∧ y + k ≤ 2 ^ 32 ∨ y + k ≤ x ∧ x + n ≤ 2 ^ 32) :
    loadBytes m' (f + BitVec.ofNat 32 y) k = loadBytes m (f + BitVec.ofNat 32 y) k :=
  loadBytes_of_sameOutside h (apart_of_offsets rfl rfl (by omega) (by omega) (by omega))

/-- The ICMP part of the work leaves what stands before it alone. -/
theorem loadBytes_putEchoReply_before (s : State) {y k : Nat} (h : y + k ≤ 34) :
    loadBytes (putEchoReply s) (frameBase s + BitVec.ofNat 32 y) k =
      loadBytes (replyIp4Summed s) (frameBase s + BitVec.ofNat 32 y) k := by
  rw [loadBytes_at_offset (sameOutside_putEchoReply_icmp s) (by omega),
    loadBytes_at_offset (sameOutside_replyTypePut s) (by omega)]

section
variable {s : State} (hm : memoryWf s.mem = true)
include hm

theorem memoryWf_replyIpsPut : memoryWf (replyIpsPut s) = true :=
  memoryWf_storeBytes (memoryWf_storeBytes (memoryWf_storeBytes hm _ _) _ _) _ _

theorem memoryWf_replyIp4Blank : memoryWf (replyIp4Blank s) = true :=
  memoryWf_storeBytes (memoryWf_replyIpsPut hm) _ _

theorem memoryWf_replyTypePut : memoryWf (replyTypePut s) = true :=
  memoryWf_storeBytes (memoryWf_putCksum (memoryWf_replyIp4Blank hm) _ _ _) _ _

theorem memoryWf_replyIcmpBlank : memoryWf (replyIcmpBlank s) = true :=
  memoryWf_storeBytes (memoryWf_replyTypePut hm) _ _

theorem memoryWf_putEchoReply : memoryWf (putEchoReply s) = true := by
  rw [putEchoReply_eq]
  exact memoryWf_putCksum (memoryWf_replyIcmpBlank hm) _ _ _

theorem loadBytes_putEchoReply_macs : loadBytes (putEchoReply s) (frameBase s) 12 = replyMacs s := by
  have h : loadBytes (putEchoReply s) (frameBase s + 0#32) 12 = loadBytes (replyMacsPut s) (frameBase s + 0#32) 12 := by
    rw [loadBytes_putEchoReply_before s (by decide), loadBytes_at_offset (sameOutside_replyIp4Summed s) (by decide),
      loadBytes_at_offset (sameOutside_replyIpsPut s) (by decide),
      loadBytes_at_offset (sameOutside_replyTtlPut s) (by decide)]
  rw [BitVec.add_zero] at h
  exact h.trans (loadBytes_storeBytes s.mem hm (frameBase s) (replyMacs s) (by simp [replyMacs]))

theorem loadBytes_putEchoReply_ttl : loadBytes (putEchoReply s) (frameBase s + 22#32) 1 = [s.ip4Ttl] := by
  rw [loadBytes_putEchoReply_before s (by decide), loadBytes_at_offset (sameOutside_replyIp4Summed s) (by decide),
    loadBytes_at_offset (sameOutside_replyIpsPut s) (by decide)]
  exact loadBytes_storeBytes _ (memoryWf_storeBytes hm _ _) _ [s.ip4Ttl] (by simp)

theorem loadBytes_putEchoReply_ips : loadBytes (putEchoReply s) (frameBase s + 26#32) 8 = replyIps s := by
  rw [loadBytes_putEchoReply_before s (by decide), loadBytes_at_offset (sameOutside_replyIp4Summed s) (by decide)]
  exact loadBytes_storeBytes _ (memoryWf_storeBytes (memoryWf_storeBytes hm _ _) _ _) _ (replyIps s)
    (by simp [replyIps])

theorem loadBytes_putEchoReply_type : loadBytes (putEchoReply s) (frameBase s + 34#32) 1 = [0#8] := by
  rw [loadBytes_at_offset (sameOutside_putEchoReply_icmp s) (by decide)]
  exact loadBytes_storeBytes _ (memoryWf_putCksum (memoryWf_replyIp4Blank hm) _ _ _) _ [0#8] (by simp)

/-- The header checksum (R231), written before the ICMP part. -/
theorem holdsCksum_putEchoReply_ip4 : HoldsCksum (putEchoReply s) (frameBase s + 14#32) 10 8 := by
  refine HoldsCksum.congr (m := replyIp4Summed s) ?_ (loadBytes_putEchoReply_before s (by decide))
  exact holdsCksum_putCksum (memoryWf_replyIp4Blank hm) (by simp [BitVec.add_assoc]) rfl (by decide)
    (loadBytes_storeBytes _ (memoryWf_replyIpsPut hm) _ [0#8, 0#8] (by simp))

/-- The checksum of the ICMP message (R231), written last. -/
theorem holdsCksum_putEchoReply_icmp (hmin : 24 ≤ frameTotlen s) (hmax : frameTotlen s ≤ 1500) :
    HoldsCksum (putEchoReply s) (frameBase s + 34#32) 2 (frameTotlen s - 24) := by
  rw [putEchoReply_eq]
  exact holdsCksum_putCksum (memoryWf_replyIcmpBlank hm) (by simp [BitVec.add_assoc]) (by omega) (by omega)
    (loadBytes_storeBytes _ (memoryWf_replyTypePut hm) _ [0#8, 0#8] (by simp))

end

/-! ## The frame of the command -/

/-- A byte that stands at none of some offsets of a frame, over a step that writes at those offsets only. -/
theorem loadByte_off_offsets {m m' : Memory} {f : Word} {c n x : Nat} {P : Nat → Prop}
    (h : sameOutside m m' (f + BitVec.ofNat 32 c) n) (hP : ∀ i, i < n → P (c + i))
    (hx : ∀ k, P k → x ≠ (f + BitVec.ofNat 32 k).toNat) : loadByte m' x = loadByte m x := by
  refine h x fun i hi => ?_
  rw [BitVec.add_assoc, ← BitVec.ofNat_add]
  exact hx _ (hP i hi)

/-- The offsets the reply rewrites: the MAC addresses, the time-to-live, the header checksum with the IPv4 addresses and
the ICMP type, and the ICMP checksum (R231). -/
def replyOffset (k : Nat) : Prop := k < 12 ∨ k = 22 ∨ (24 ≤ k ∧ k ≤ 34) ∨ k = 36 ∨ k = 37

theorem loadByte_putEchoReply {s : State} {x : Nat}
    (hx : ∀ k, replyOffset k → x ≠ (frameBase s + BitVec.ofNat 32 k).toNat) :
    loadByte (putEchoReply s) x = loadByte s.mem x :=
  calc loadByte (putEchoReply s) x
    _ = loadByte (replyTypePut s) x :=
      loadByte_off_offsets (sameOutside_putEchoReply_icmp s) (fun i hi => by unfold replyOffset; omega) hx
    _ = loadByte (replyIp4Summed s) x :=
      loadByte_off_offsets (sameOutside_replyTypePut s) (fun i hi => by unfold replyOffset; omega) hx
    _ = loadByte (replyIpsPut s) x :=
      loadByte_off_offsets (sameOutside_replyIp4Summed s) (fun i hi => by unfold replyOffset; omega) hx
    _ = loadByte (replyTtlPut s) x :=
      loadByte_off_offsets (sameOutside_replyIpsPut s) (fun i hi => by unfold replyOffset; omega) hx
    _ = loadByte (replyMacsPut s) x :=
      loadByte_off_offsets (sameOutside_replyTtlPut s) (fun i hi => by unfold replyOffset; omega) hx
    _ = loadByte s.mem x := sameOutside_replyMacsPut s x fun i hi => hx i (.inl hi)

/-! ## The command -/

theorem icmpEchoReply_badArg_iff (s : State) :
    (decide (s.p.p1.toNat < 42) || decide (s.p.p1.toNat > 1514)) = true ↔ s.p.p1.toNat < 42 ∨ 1514 < s.p.p1.toNat := by
  simp

/-- The content checks of R231, in words of the frame's bytes. -/
theorem isEchoRequest_eq_decide (s : State) :
    isEchoRequest s = decide (loadBe16 s.mem (s.p.p0 + 12#32) = 0x0800#16 ∧ load8 s.mem (s.p.p0 + 14#32) = 0x45#8 ∧
      load8 s.mem (s.p.p0 + 23#32) = 1#8 ∧ 28 ≤ frameTotlen s ∧ frameTotlen s ≤ s.p.p1.toNat - 14 ∧
      load8 s.mem (s.p.p0 + 34#32) = 8#8) := by
  rw [Bool.eq_iff_iff, decide_eq_true_iff]
  simp only [isEchoRequest, Bool.and_eq_true, beq_iff_eq, decide_eq_true_eq, and_assoc]
  rfl

/-- Settles O43: what the reply's bytes are, field by field, and that nothing else is touched. -/
theorem echoReplyIsBuiltInPlace : Obligations.EchoReplyIsBuiltInPlace := by
  intro s f len totlen isRequest hm hb hf hlen htotlen hreq
  subst hf hlen
  obtain rfl : totlen = frameTotlen s := htotlen
  obtain rfl : isRequest = isEchoRequest s := hreq.trans (isEchoRequest_eq_decide s).symm
  refine ⟨fun hbad => ?_, fun hmin hmax ha => ?_, fun hmin hmax ha hno => ?_, fun hmin hmax ha hyes => ?_⟩
  · exact ppComplete_of_check hb (badArgIf_of (icmpEchoReply_badArg_iff s) hbad)
  · exact ppComplete_of_not_admitted hb (badArgIf_of_not (icmpEchoReply_badArg_iff s) (by omega)) ha
  · exact ppComplete_of_raised hb (badArgIf_of_not (icmpEchoReply_badArg_iff s) (by omega)) ha
      (if_neg (Bool.eq_false_iff.1 hno))
  · have hfields := hyes
    rw [isEchoRequest_eq_decide, decide_eq_true_iff] at hfields
    obtain ⟨-, -, -, htotmin, htotmax, -⟩ := hfields
    have hip4 := holdsCksum_putEchoReply_ip4 hm
    have hicmp := holdsCksum_putEchoReply_icmp hm (by omega) (by omega)
    refine ⟨putEchoReply s, ppComplete_of_done hb (badArgIf_of_not (icmpEchoReply_badArg_iff s) (by omega)) ha
      (if_pos hyes), loadBytes_putEchoReply_macs hm, (List.cons.inj (loadBytes_putEchoReply_ttl hm)).1,
      loadBytes_putEchoReply_ips hm, (List.cons.inj (loadBytes_putEchoReply_type hm)).1, ?_, ?_, hip4.verifies rfl, ?_,
      fun x hx => loadByte_putEchoReply hx, memoryWf_putEchoReply hm⟩
    · rw [HoldsCksum, BitVec.add_assoc, BitVec.add_assoc] at hip4
      exact hip4
    · rw [HoldsCksum, BitVec.add_assoc, BitVec.add_assoc] at hicmp
      exact hicmp
    · rw [show frameTotlen s - 20 = 2 + 2 + (frameTotlen s - 24) by omega]
      exact hicmp.verifies rfl

end Sys2Proof.Machine
end

section
/-! `RX_CLASSIFY` (45_pp_classify R260 to R266): an equation per case of the Layer-2 and IPv4 stages, the ends of the
command, and the statements about it. -/

namespace Sys2Proof.Machine

/-! ## The command (R260) -/

theorem rxClassifyCheck_of_long {s : State} (h : 0xFFFF < s.p.p1.toNat) : rxClassifyCheck s = some .errBadArg :=
  if_pos h

theorem rxClassifyCheck_of_fits {s : State} (h : s.p.p1.toNat ≤ 0xFFFF) : rxClassifyCheck s = none :=
  if_neg (Nat.not_lt.2 h)

section
variable {s : State} (hb : s.ppBusy = true)
include hb

theorem exec_rxClassify_of_long (hlen : 0xFFFF < s.p.p1.toNat) :
    exec .rxClassify s = .next (s.completed .errBadArg) :=
  ppComplete_of_check hb (rxClassifyCheck_of_long hlen)

theorem exec_rxClassify_of_not_admitted (hlen : s.p.p1.toNat ≤ 0xFFFF)
    (ha : admitted s.platform s.p.p0 s.p.p1.toNat = false) : exec .rxClassify s = .next (s.completed .errBus) :=
  ppComplete_of_not_admitted hb (rxClassifyCheck_of_fits hlen) ha

theorem exec_rxClassify_of_done {c : PpResult} {u : State} (hlen : s.p.p1.toNat ≤ 0xFFFF)
    (ha : admitted s.platform s.p.p0 s.p.p1.toNat = true) (he : l2Stage s.p.p1.toNat s.p.p2 s = .done c u) :
    exec .rxClassify s = .next (u.completed c) :=
  ppComplete_of_done hb (rxClassifyCheck_of_fits hlen) ha he

end

/-! ## The Layer-2 stage (R261) -/

section
variable {len : Nat} (now : Word) {s : State}

theorem l2Stage_of_runt (h : len < 14) : l2Stage len now s = .done .dropL2Runt (count .l2OtherDrop s) := if_pos h

theorem l2Stage_of_arpType (h : 14 ≤ len) (het : frame16 s 12#32 = 0x0806#16) :
    l2Stage len now s =
      if len < 42 then .done .dropL2ArpShort (count .l2ArpDrop s) else arpStage now (count .l2ArpAcc s) := by
  rw [l2Stage, if_neg (Nat.not_lt.2 h), if_pos het, dropWith]

theorem l2Stage_of_ip4Type (h : 14 ≤ len) (het : frame16 s 12#32 = 0x0800#16) :
    l2Stage len now s =
      if len < 34 then .done .dropL2Ip4Short (count .l2Ip4Drop s) else ip4Stage len (count .l2Ip4Acc s) := by
  rw [l2Stage, if_neg (Nat.not_lt.2 h), if_neg (by rw [het]; decide), if_pos het, dropWith]

theorem l2Stage_of_otherType (h : 14 ≤ len) (harp : frame16 s 12#32 ≠ 0x0806#16) (hip4 : frame16 s 12#32 ≠ 0x0800#16) :
    l2Stage len now s = .done .dropL2Type (count .l2OtherDrop s) := by
  rw [l2Stage, if_neg (Nat.not_lt.2 h), if_neg harp, if_neg hip4, dropWith]

end

/-- Settles O45: the two checks of the operands, then the Layer-2 drops by length and EtherType. -/
theorem classifyLayer2Drops : Obligations.ClassifyLayer2Drops := by
  intro s len et hb hlen het
  subst hlen het
  refine ⟨fun hlong => ?_, fun hfits ha => ?_, fun ha hrunt => ?_, fun ha hmin hshort het => ?_,
    fun ha hmin hshort het => ?_, fun ha hmin hfits harp hip4 => ?_⟩
  · exact exec_rxClassify_of_long hb hlong
  · exact exec_rxClassify_of_not_admitted hb hfits ha
  · exact exec_rxClassify_of_done hb (by omega) ha (l2Stage_of_runt _ hrunt)
  · exact exec_rxClassify_of_done hb (by omega) ha ((l2Stage_of_arpType _ hmin het).trans (if_pos hshort))
  · exact exec_rxClassify_of_done hb (by omega) ha ((l2Stage_of_ip4Type _ hmin het).trans (if_pos hshort))
  · exact exec_rxClassify_of_done hb hfits ha (l2Stage_of_otherType _ hmin harp hip4)

/-! ## The ARP stage (R262) -/

/-- The `LO` form of a MAC address as arithmetic (R14). -/
theorem macLo_eq_ofNat (m : Mac) : macLo m = BitVec.ofNat 32 (m.toNat % 2 ^ 32) := by
  apply BitVec.eq_of_toNat_eq
  rw [macLo, toNat_extractLsb'_eq, BitVec.toNat_ofNat]
  omega

/-- The `HI` form of a MAC address as arithmetic (R14). -/
theorem macHi_eq_ofNat (m : Mac) : macHi m = BitVec.ofNat 32 (m.toNat / 2 ^ 32) := by
  have hm := m.isLt
  apply BitVec.eq_of_toNat_eq
  rw [macHi, BitVec.toNat_setWidth, toNat_extractLsb'_eq, BitVec.toNat_ofNat]
  omega

/-- The tests of R262 on the fixed fields and the operation. -/
theorem arpFieldsOk_eq_decide (s : State) :
    arpFieldsOk s = decide (frame16 s 14#32 = 1#16 ∧ frame16 s 16#32 = 0x0800#16 ∧ frame8 s 18#32 = 6#8 ∧
      frame8 s 19#32 = 4#8 ∧ (frame16 s 20#32 = 1#16 ∨ frame16 s 20#32 = 2#16)) := by
  rw [Bool.eq_iff_iff, decide_eq_true_iff]
  simp only [arpFieldsOk, Bool.and_eq_true, Bool.or_eq_true, beq_iff_eq, and_assoc]

/-- An ARP frame of full length ends as the ARP stage ends. -/
theorem exec_rxClassify_of_arp {s : State} {c : PpResult} {u : State} (hb : s.ppBusy = true)
    (hmin : 42 ≤ s.p.p1.toNat) (hmax : s.p.p1.toNat ≤ 0xFFFF) (ha : admitted s.platform s.p.p0 s.p.p1.toNat = true)
    (het : frame16 s 12#32 = 0x0806#16) (he : arpStage s.p.p2 (count .l2ArpAcc s) = .done c u) :
    exec .rxClassify s = .next (u.completed c) :=
  exec_rxClassify_of_done hb hmax ha
    ((l2Stage_of_arpType _ (by omega) het).trans ((if_neg (Nat.not_lt.2 hmin)).trans he))

/-- Settles O46: the fields are tested and read in the state that has counted the frame. -/
theorem classifyArp : Obligations.ClassifyArp := by
  intro s f good oper sha spa tpa l hb hf hmin hmax ha het hoper hsha hspa htpa hl hgood
  subst hf hoper hsha hspa htpa hl
  replace hgood : good = arpFieldsOk (count .l2ArpAcc s) :=
    hgood.trans (arpFieldsOk_eq_decide (count .l2ArpAcc s)).symm
  rw [← macLo_eq_ofNat, ← macHi_eq_ofNat, hgood]
  rcases arpStage_cases s.p.p2 (count .l2ArpAcc s) with ⟨hbad, e⟩ | ⟨hok, e⟩
  · exact ⟨fun _ => exec_rxClassify_of_arp hb hmin hmax ha het e, fun h => absurd h (by rw [hbad]; decide)⟩
  · exact ⟨fun h => absurd h (by rw [hok]; decide), fun _ => exec_rxClassify_of_arp hb hmin hmax ha het e⟩

/-! ## The IPv4 stage (R263) -/

/-- The more-fragments flag and the fragment offset are both zero. -/
theorem fragmentBits_eq_zero_iff (v : Half) : v &&& 0x3FFF#16 = 0#16 ↔ v.toNat % 0x4000 = 0 := by
  rw [← BitVec.toNat_inj, BitVec.toNat_and]
  exact iff_of_eq (congrArg (· = 0) (Nat.and_two_pow_sub_one_eq_mod v.toNat 14))

theorem ip4ForUs_iff (s : State) (dst : Word) :
    ip4ForUs s dst = true ↔ dst = s.ip4Addr ∨ dst = subnetBroadcast s := by
  simp [ip4ForUs]

/-- What the first four tests of R263 ask of an IPv4 header in a frame of `len` bytes. -/
structure Ip4HeaderOk (len : Nat) (s : State) : Prop where
  version : frame8 s 14#32 = 0x45#8
  cksum : cksumOf (loadBytes s.mem (frameBase s + 14#32) 20) 0#16 = 0#16
  totlen_min : 20 ≤ (frame16 s 16#32).toNat
  totlen_max : (frame16 s 16#32).toNat ≤ len - 14
  whole : (frame16 s 20#32).toNat % 0x4000 = 0

section
variable {len : Nat} {s : State}

theorem ip4Stage_of_badVersion (hv : frame8 s 14#32 ≠ 0x45#8) :
    ip4Stage len s = .done .dropIp4Hdr (count .ip4Badhdr s) := if_pos hv

theorem ip4Stage_of_badCksum (hv : frame8 s 14#32 = 0x45#8)
    (hc : cksumOf (loadBytes s.mem (frameBase s + 14#32) 20) 0#16 ≠ 0#16) :
    ip4Stage len s = .done .dropIp4Csum (count .ip4Badcsum s) := by
  simp [ip4Stage, hv, hc, dropWith]

/-- The total length and the fragment test fail with the same counter and result. -/
theorem ip4Stage_of_badLengthOrFragment (hv : frame8 s 14#32 = 0x45#8)
    (hc : cksumOf (loadBytes s.mem (frameBase s + 14#32) 20) 0#16 = 0#16)
    (h : (frame16 s 16#32).toNat < 20 ∨ len - 14 < (frame16 s 16#32).toNat ∨ (frame16 s 20#32).toNat % 0x4000 ≠ 0) :
    ip4Stage len s = .done .dropIp4Hdr (count .ip4Badhdr s) := by
  rw [ip4Stage, if_neg (not_not.2 hv), if_neg (not_not.2 hc)]
  simp only [Bool.or_eq_true, decide_eq_true_eq]
  split
  · rfl
  · rw [if_pos (by rw [Ne, fragmentBits_eq_zero_iff]; omega)]
    rfl

/-- After the header tests, the destination and then the protocol decide. -/
theorem ip4Stage_of_headerOk (h : Ip4HeaderOk len s) :
    ip4Stage len s =
      if !ip4ForUs s (frame32 s 30#32) then .done .dropIp4Dst (count .ip4Baddst s)
      else if frame8 s 23#32 = 1#8 then
        icmpStage (frame32 s 26#32) (frame32 s 30#32) ((frame16 s 16#32).toNat - 20) s
      else if frame8 s 23#32 = 17#8 then
        udpStage (frame32 s 26#32) (frame32 s 30#32) ((frame16 s 16#32).toNat - 20) s
      else .done .dropIp4Proto (count .ip4Badproto s) := by
  have hlen : ¬(decide ((frame16 s 16#32).toNat < 20) || decide ((frame16 s 16#32).toNat > len - 14)) = true := by
    have hmin := h.totlen_min
    have hmax := h.totlen_max
    simp only [Bool.or_eq_true, decide_eq_true_eq]
    omega
  rw [ip4Stage, if_neg (not_not.2 h.version), if_neg (not_not.2 h.cksum), if_neg hlen,
    if_neg (not_not.2 ((fragmentBits_eq_zero_iff _).2 h.whole))]
  rfl

theorem ip4Stage_of_otherDst (h : Ip4HeaderOk len s) (hd : frame32 s 30#32 ≠ s.ip4Addr)
    (hbc : frame32 s 30#32 ≠ subnetBroadcast s) : ip4Stage len s = .done .dropIp4Dst (count .ip4Baddst s) := by
  have hus : ip4ForUs s (frame32 s 30#32) = false := by
    rw [Bool.eq_false_iff, Ne, ip4ForUs_iff]
    exact not_or.2 ⟨hd, hbc⟩
  rw [ip4Stage_of_headerOk h, hus]
  rfl

section
variable (h : Ip4HeaderOk len s) (hd : frame32 s 30#32 = s.ip4Addr ∨ frame32 s 30#32 = subnetBroadcast s)
include h hd

/-- For a packet to this station the protocol decides. -/
theorem ip4Stage_of_forUs :
    ip4Stage len s =
      if frame8 s 23#32 = 1#8 then
        icmpStage (frame32 s 26#32) (frame32 s 30#32) ((frame16 s 16#32).toNat - 20) s
      else if frame8 s 23#32 = 17#8 then
        udpStage (frame32 s 26#32) (frame32 s 30#32) ((frame16 s 16#32).toNat - 20) s
      else .done .dropIp4Proto (count .ip4Badproto s) := by
  rw [ip4Stage_of_headerOk h, (ip4ForUs_iff s _).2 hd]
  rfl

theorem ip4Stage_of_icmp (hp : frame8 s 23#32 = 1#8) :
    ip4Stage len s = icmpStage (frame32 s 26#32) (frame32 s 30#32) ((frame16 s 16#32).toNat - 20) s :=
  (ip4Stage_of_forUs h hd).trans (if_pos hp)

theorem ip4Stage_of_udp (hp : frame8 s 23#32 = 17#8) :
    ip4Stage len s = udpStage (frame32 s 26#32) (frame32 s 30#32) ((frame16 s 16#32).toNat - 20) s := by
  rw [ip4Stage_of_forUs h hd, if_neg (by rw [hp]; decide), if_pos hp]

theorem ip4Stage_of_otherProto (hicmp : frame8 s 23#32 ≠ 1#8) (hudp : frame8 s 23#32 ≠ 17#8) :
    ip4Stage len s = .done .dropIp4Proto (count .ip4Badproto s) := by
  rw [ip4Stage_of_forUs h hd, if_neg hicmp, if_neg hudp]

end
end

/-- An IPv4 frame of full length ends as the IPv4 stage ends. -/
theorem exec_rxClassify_of_ip4 {s : State} {c : PpResult} {u : State} (hb : s.ppBusy = true)
    (hmin : 34 ≤ s.p.p1.toNat) (hmax : s.p.p1.toNat ≤ 0xFFFF) (ha : admitted s.platform s.p.p0 s.p.p1.toNat = true)
    (het : frame16 s 12#32 = 0x0800#16) (he : ip4Stage s.p.p1.toNat (count .l2Ip4Acc s) = .done c u) :
    exec .rxClassify s = .next (u.completed c) :=
  exec_rxClassify_of_done hb hmax ha
    ((l2Stage_of_ip4Type _ (by omega) het).trans ((if_neg (Nat.not_lt.2 hmin)).trans he))

/-- Settles O47, by the tests in their order. -/
theorem classifyIp4Drops : Obligations.ClassifyIp4Drops := by
  intro s s1 f len totlen dst hb hf hlen hmin hmax ha het hs1 htotlen hdst
  subst hf hlen hs1 htotlen hdst
  refine ⟨fun hv => ?_, fun hv hc => ?_, fun hv hc => ⟨fun hbad => ?_, fun h20 hfit hwhole => ?_⟩⟩
  · exact exec_rxClassify_of_ip4 hb hmin hmax ha het (ip4Stage_of_badVersion hv)
  · exact exec_rxClassify_of_ip4 hb hmin hmax ha het (ip4Stage_of_badCksum hv hc)
  · exact exec_rxClassify_of_ip4 hb hmin hmax ha het (ip4Stage_of_badLengthOrFragment hv hc hbad)
  · have hok : Ip4HeaderOk s.p.p1.toNat (count .l2Ip4Acc s) := ⟨hv, hc, h20, hfit, hwhole⟩
    exact ⟨fun hd hbc => exec_rxClassify_of_ip4 hb hmin hmax ha het (ip4Stage_of_otherDst hok hd hbc),
      fun hd hicmp hudp => exec_rxClassify_of_ip4 hb hmin hmax ha het (ip4Stage_of_otherProto hok hd hicmp hudp)⟩

/-! ## The ICMP and UDP stages (R264, R265) -/

theorem icmpIsEcho_iff (s : State) :
    icmpIsEcho s = true ↔ frame8 s 35#32 = 0#8 ∧ (frame8 s 34#32 = 0#8 ∨ frame8 s 34#32 = 8#8) := by
  simp [icmpIsEcho]

theorem portMatch_eq_none {ports : Vector Half 8} {port : Half} (h : port = 0#16 ∨ ∀ k : Fin 8, ports[k] ≠ port) :
    portMatch ports port = none := by
  cases hm : portMatch ports port with
  | none => rfl
  | some k =>
    obtain ⟨hport, hk⟩ := portMatch_some hm
    exact (h.elim hport fun hno => hno k hk).elim

/-- The only slot that holds the port is the one that matches (R300). -/
theorem portMatch_eq_some {ports : Vector Half 8} {port : Half} {k : Fin 8} (hport : port ≠ 0#16)
    (hk : ports[k] = port) (huniq : ∀ j : Fin 8, ports[j] = port → j = k) : portMatch ports port = some k := by
  cases hm : portMatch ports port with
  | none => exact ((portMatch_none hm).elim hport fun hno => hno k hk).elim
  | some j => rw [huniq j (portMatch_some hm).2]

section
variable {src dst : Word} {l4len : Nat} {s : State}

theorem icmpStage_of_drop (h : l4len < 8 ∨ icmpIsEcho s = false) :
    icmpStage src dst l4len s = .done .dropIcmp (count .icmpDrop s) := by
  rcases icmpStage_cases src dst l4len s with ⟨-, e⟩ | ⟨hlen, hecho, -⟩
  · exact e
  · exact absurd h (by simp [hlen, hecho])

theorem icmpStage_of_echo (hlen : 8 ≤ l4len) (hecho : icmpIsEcho s = true) :
    icmpStage src dst l4len s = .done (if frame8 s 34#32 = 8#8 then .rxIcmpEchoRequest else .rxIcmpEchoReply)
      { s with
        p :=
          { s.p with
            p1 := src
            p2 := (frame16 s 38#32).setWidth 32
            p3 := (frame16 s 40#32).setWidth 32
            p4 := ofLen l4len
            p5 := dst } } := by
  rcases icmpStage_cases src dst l4len s with ⟨h, -⟩ | ⟨-, -, e⟩
  · exact absurd h (by simp [hlen, hecho])
  · exact e

theorem udpStage_of_badLength (h : l4len < 8 ∨ (frame16 s 38#32).toNat < 8 ∨ l4len < (frame16 s 38#32).toNat) :
    udpStage src dst l4len s = .done .dropUdpLen (count .udpBadlen s) := by
  rcases udpStage_cases src dst l4len s with ⟨-, e⟩ | ⟨h8, hmin, hmax, -, -⟩ | ⟨k, h8, hmin, hmax, -, -⟩
  · exact e
  · omega
  · omega

section
variable (h8 : 8 ≤ l4len) (hmin : 8 ≤ (frame16 s 38#32).toNat) (hmax : (frame16 s 38#32).toNat ≤ l4len)
include h8 hmin hmax

theorem udpStage_of_noPort (hm : portMatch s.udpPort (frame16 s 36#32) = none) :
    udpStage src dst l4len s = .done .dropUdpPort (count .udpNoport s) := by
  rcases udpStage_cases src dst l4len s with ⟨h, -⟩ | ⟨-, -, -, -, e⟩ | ⟨k, -, -, -, hk, -⟩
  · omega
  · exact e
  · rw [hm] at hk
    cases hk

theorem udpStage_of_port {k : Fin 8} (hm : portMatch s.udpPort (frame16 s 36#32) = some k) :
    udpStage src dst l4len s = .done .rxUdp
      { s with
        p :=
          { s.p with
            p1 := src
            p2 := (frame16 s 34#32).setWidth 32
            p3 := ofLen k.val
            p4 := frameBase s + 42#32
            p5 := ofLen ((frame16 s 38#32).toNat - 8)
            p6 := dst
            p7 := (frame16 s 36#32).setWidth 32 } } := by
  rcases udpStage_cases src dst l4len s with ⟨h, -⟩ | ⟨-, -, -, hno, -⟩ | ⟨j, -, -, -, hj, e⟩
  · omega
  · rw [hm] at hno
    cases hno
  · obtain rfl : k = j := Option.some.inj (hm.symm.trans hj)
    exact e

end
end

/-- Settles O48: the accepted packet goes to the stage of its protocol, in the state that has counted the frame. -/
theorem classifyIcmpAndUdp : Obligations.ClassifyIcmpAndUdp := by
  intro s s1 f len totlen l4len src dst dport ulen hb hf hlen hmin hmax ha het hs1 htotlen hsrc hdst hdport hulen hl4len
    hv hc h20 hfit hwhole hd
  subst hf hlen hs1 htotlen hsrc hdst hdport hulen hl4len
  have hok : Ip4HeaderOk s.p.p1.toNat (count .l2Ip4Acc s) := ⟨hv, hc, h20, hfit, hwhole⟩
  refine ⟨fun hp => ?_, fun hp => ?_⟩
  · have icmpEnds {c u} he := exec_rxClassify_of_ip4 (c := c) (u := u) hb hmin hmax ha het
      ((ip4Stage_of_icmp hok hd hp).trans he)
    refine ⟨fun hbad => icmpEnds (icmpStage_of_drop ?_), fun h8 hcode htype => icmpEnds (icmpStage_of_echo h8 ?_)⟩
    · rw [← Bool.not_eq_true, icmpIsEcho_iff]
      refine hbad.imp_right fun hno hecho => ?_
      obtain ⟨hcode, htype⟩ := hecho
      exact hno.elim (· hcode) fun ⟨h0, hreq⟩ => htype.elim h0 hreq
    · exact (icmpIsEcho_iff _).2 ⟨hcode, htype⟩
  · have udpEnds {c u} he := exec_rxClassify_of_ip4 (c := c) (u := u) hb hmin hmax ha het
      ((ip4Stage_of_udp hok hd hp).trans he)
    exact ⟨fun hbad => udpEnds (udpStage_of_badLength hbad),
      fun h8 hu hfits hno => udpEnds (udpStage_of_noPort h8 hu hfits (portMatch_eq_none hno)),
      fun k h8 hu hfits hport hk huniq =>
        udpEnds (udpStage_of_port (s := count .l2Ip4Acc s) h8 hu hfits (portMatch_eq_some hport hk huniq))⟩

/-! ## The frame of the command (R266) -/

/-- What ending with result `c` in state `u` leaves of the state `s`, apart from the counters. -/
structure ClassifyKeeps (s : State) (c : PpResult) (u : State) : Prop where
  noError : 6 < c.code.toNat
  mem : u.mem = s.mem
  ports : u.udpPort = s.udpPort
  base : u.p.p0 = s.p.p0
  operands : 0x30 ≤ c.code.toNat → u.p = s.p
  cache : c ≠ .rxArpRequest → c ≠ .rxArpReply → c ≠ .rxArpOther → u.arp = s.arp

/-- The effect finishes, with a result and a state that `P` relates. -/
def PpEnd.DoneWith (P : PpResult → State → Prop) (e : PpEnd) : Prop := ∃ c u, e = .done c u ∧ P c u

theorem classifyKeeps_drop {c : PpResult} (hc : 0x30 ≤ c.code.toNat) (n : CounterName) (s : State) :
    ClassifyKeeps s c (count n s) :=
  ⟨by omega, rfl, rfl, rfl, fun _ => rfl, fun _ _ _ => rfl⟩

/-- A drop finishes with its code and has counted one event. -/
theorem doneWith_drop {c : PpResult} (hc : 0x30 ≤ c.code.toNat) (n : CounterName) (s : State) :
    (PpEnd.done c (count n s)).DoneWith (ClassifyKeeps s) :=
  ⟨c, _, rfl, classifyKeeps_drop hc n s⟩

/-- An accepted packet ends with a code below those of the drops and writes the operands after `P0`. -/
theorem doneWith_accepted {c : PpResult} {s : State} {p : PRegs} (hmin : 6 < c.code.toNat) (hmax : c.code.toNat < 0x30)
    (hp : p.p0 = s.p.p0) : (PpEnd.done c { s with p := p }).DoneWith (ClassifyKeeps s) :=
  ⟨c, _, rfl, hmin, rfl, rfl, hp, fun h => absurd h (Nat.not_le.2 hmax), fun _ _ _ => rfl⟩

theorem icmpStage_keeps (src dst : Word) (l4len : Nat) (s : State) :
    (icmpStage src dst l4len s).DoneWith (ClassifyKeeps s) := by
  rcases icmpStage_cases src dst l4len s with ⟨-, e⟩ | ⟨-, -, e⟩ <;> rw [e]
  · exact doneWith_drop (by decide) _ s
  · split
    · exact doneWith_accepted (by decide) (by decide) rfl
    · exact doneWith_accepted (by decide) (by decide) rfl

theorem udpStage_keeps (src dst : Word) (l4len : Nat) (s : State) :
    (udpStage src dst l4len s).DoneWith (ClassifyKeeps s) := by
  rcases udpStage_cases src dst l4len s with ⟨-, e⟩ | ⟨-, -, -, -, e⟩ | ⟨k, -, -, -, -, e⟩ <;> rw [e]
  · exact doneWith_drop (by decide) _ s
  · exact doneWith_drop (by decide) _ s
  · exact doneWith_accepted (by decide) (by decide) rfl

theorem arpResultOf_code (s : State) : 6 < (arpResultOf s).code.toNat ∧ (arpResultOf s).code.toNat < 0x30 := by
  rcases arpResultOf_cases s with hr | hr | hr <;> rw [hr] <;> decide

theorem arpStage_keeps (now : Word) (s : State) : (arpStage now s).DoneWith (ClassifyKeeps s) := by
  rcases arpStage_cases now s with ⟨-, e⟩ | ⟨-, e⟩ <;> rw [e]
  · exact doneWith_drop (by decide) _ s
  · have hcode := arpResultOf_code s
    exact ⟨_, _, rfl, by omega, rfl, rfl, rfl, fun h => by omega, fun hrequest hreply hother =>
      ((arpResultOf_cases s).elim hreply fun h => h.elim hrequest hother).elim⟩

theorem ip4Stage_keeps (len : Nat) (s : State) : (ip4Stage len s).DoneWith (ClassifyKeeps s) := by
  rcases ip4Stage_cases len s with e | e | e | e | ⟨-, e⟩ | ⟨-, e⟩ <;> rw [e]
  · exact doneWith_drop (by decide) _ s
  · exact doneWith_drop (by decide) _ s
  · exact doneWith_drop (by decide) _ s
  · exact doneWith_drop (by decide) _ s
  · exact icmpStage_keeps _ _ _ s
  · exact udpStage_keeps _ _ _ s

/-- `ClassifyKeeps`, and how the counters move: one Layer-2 counter counts one, and at most one drop counter of a later
stage. -/
structure Classified (s : State) (c : PpResult) (u : State) : Prop extends ClassifyKeeps s c u where
  counters : ∃ n, layer2Counter n = true ∧ (u.counters = s.counters.bump n ∨
    ∃ k, dropCounter k = true ∧ u.counters = (s.counters.bump n).bump k)

theorem doneWith_layer2Drop {c : PpResult} {n : CounterName} (hc : 0x30 ≤ c.code.toNat) (hn : layer2Counter n = true)
    (s : State) : (PpEnd.done c (count n s)).DoneWith (Classified s) :=
  ⟨c, _, rfl, classifyKeeps_drop hc n s, n, hn, .inl rfl⟩

/-- A later stage, run after the acceptance count of the Layer-2 stage. -/
theorem PpEnd.DoneWith.after_count {n : CounterName} {s : State} {e : PpEnd} (hn : layer2Counter n = true)
    (hkeeps : e.DoneWith (ClassifyKeeps (count n s))) (hadvances : e.Finishes (StageAdvances (count n s))) :
    e.DoneWith (Classified s) := by
  obtain ⟨c, u, rfl, hnoError, hmem, hports, hbase, hoperands, hcache⟩ := hkeeps
  exact ⟨c, u, rfl, ⟨hnoError, hmem, hports, hbase, hoperands, hcache⟩, n, hn, StageAdvances.counters hadvances⟩

theorem l2Stage_classified (len : Nat) (now : Word) (s : State) :
    (l2Stage len now s).DoneWith (Classified s) := by
  rcases l2Stage_cases len now s with e | e | e | e | ⟨-, -, e⟩ | ⟨-, -, e⟩ <;> rw [e]
  · exact doneWith_layer2Drop (by decide) rfl s
  · exact doneWith_layer2Drop (by decide) rfl s
  · exact doneWith_layer2Drop (by decide) rfl s
  · exact doneWith_layer2Drop (by decide) rfl s
  · exact (arpStage_keeps now _).after_count rfl (arpStage_finishes now _)
  · exact (ip4Stage_keeps len _).after_count rfl (ip4Stage_finishes len _)

/-- The command ends with an error in the state as it was, or as its stages classify the frame. -/
theorem exec_rxClassify_cases {s : State} (hb : s.ppBusy = true) :
    ∃ c u, exec .rxClassify s = .next (u.completed c) ∧ (u = s ∧ c.code.toNat ≤ 6 ∨ Classified s c u) := by
  by_cases hlen : s.p.p1.toNat ≤ 0xFFFF
  · cases ha : admitted s.platform s.p.p0 s.p.p1.toNat with
    | false => exact ⟨_, s, exec_rxClassify_of_not_admitted hb hlen ha, .inl ⟨rfl, by decide⟩⟩
    | true =>
      obtain ⟨c, u, he, hcu⟩ := l2Stage_classified s.p.p1.toNat s.p.p2 s
      exact ⟨c, u, exec_rxClassify_of_done hb hlen ha he, .inr hcu⟩
  · exact ⟨_, s, exec_rxClassify_of_long hb (Nat.lt_of_not_le hlen), .inl ⟨rfl, by decide⟩⟩

/-- Settles O49: an error leaves the state as it was, and no stage does more than `Classified` says. -/
theorem classifyFrame : Obligations.ClassifyFrame := by
  intro s t hb h
  obtain ⟨c, u, e, ⟨rfl, herr⟩ | hcu⟩ := exec_rxClassify_cases hb
  · obtain rfl := Host.Outcome.next.inj (h.symm.trans e)
    exact ⟨rfl, rfl, rfl, fun _ => rfl, fun _ _ _ => rfl, fun _ => rfl, fun hbig => absurd hbig (Nat.not_lt.2 herr)⟩
  · obtain rfl := Host.Outcome.next.inj (h.symm.trans e)
    have hno : ¬c.code.toNat ≤ 6 := Nat.not_le.2 hcu.noError
    exact ⟨hcu.mem, hcu.ports, hcu.base, fun hc => hcu.operands (hc.resolve_right hno), hcu.cache,
      fun hc => absurd hc hno, fun _ => hcu.counters⟩

end Sys2Proof.Machine
end

section
/-! The tables of the packet processor (46_pp_tables R290 to R299): which slot a lookup and an allocation answer, and
from it the commands over the ARP cache, the next hop and the port table. -/

namespace Sys2Proof.Machine

/-! ## Lookups in the cache (R291, R292) -/

section
variable {cache : Vector ArpEntry 16} {ip : Word} {i : Fin 16}

/-- With one entry per address (R296a), the entry that holds the address is the one `find` answers. -/
theorem arpFind_eq_some
    (huniq : ∀ i j : Fin 16, cache[i].state ≠ .empty → cache[j].state ≠ .empty → cache[i].ip = cache[j].ip → i = j)
    (hi : cache[i].state ≠ .empty) (hip : cache[i].ip = ip) : arpFind cache ip = some i := by
  cases hf : arpFind cache ip with
  | none => exact absurd hip (arpFind_none hf i hi)
  | some j =>
    obtain ⟨hj, hjp⟩ := arpFind_some hf
    rw [huniq j i hj hi (hjp.trans hip.symm)]

theorem arpFind_eq_none (h : ∀ j : Fin 16, cache[j].state ≠ .empty → cache[j].ip ≠ ip) : arpFind cache ip = none := by
  cases hf : arpFind cache ip with
  | none => rfl
  | some j =>
    obtain ⟨hj, hjp⟩ := arpFind_some hf
    exact absurd hjp (h j hj)

theorem arpFirstEmpty_eq_some (hi : cache[i].state = .empty)
    (hlow : ∀ j : Fin 16, j.val < i.val → cache[j].state ≠ .empty) : arpFirstEmpty cache = some i := by
  rw [arpFirstEmpty, ← Fin.find?_eq_find?_finRange, Fin.find?_eq_some_iff]
  exact ⟨beq_iff_eq.2 hi, fun j hj => beq_eq_false_iff_ne.2 (hlow j hj)⟩

theorem arpFirstEmpty_eq_none (h : ∀ j : Fin 16, cache[j].state ≠ .empty) : arpFirstEmpty cache = none := by
  cases hf : arpFirstEmpty cache with
  | none => rfl
  | some j => exact absurd (arpFirstEmpty_some hf) (h j)

/-- The oldest entry is Mathlib's `argmin` of the timestamps, whose ties go to the lowest index too. -/
theorem some_arpOldest (cache : Vector ArpEntry 16) :
    some (arpOldest cache) = (List.finRange 16).argmin fun i => cache[i].ts.toNat := by
  have hfirst : List.finRange 16 = 0 :: (List.finRange 16).tail := rfl
  rw [arpOldest, List.argmin, hfirst, List.foldl_cons, if_neg (lt_irrefl _)]
  refine (List.foldl_hom some fun best i => ?_).symm
  exact (apply_ite some _ _ _).symm

/-- The smallest timestamp, and no equal one before it (R292). -/
theorem arpOldest_eq_iff :
    arpOldest cache = i ↔ (∀ j : Fin 16, cache[i].ts.toNat ≤ cache[j].ts.toNat) ∧
      ∀ j : Fin 16, j.val < i.val → cache[i].ts.toNat < cache[j].ts.toNat := by
  rw [← Option.some_inj, some_arpOldest, List.argmin_eq_some_iff]
  simp only [List.mem_finRange, true_and, forall_const, List.idxOf_finRange]
  exact and_congr_right fun _ => forall_congr' fun j => by omega

/-! ## Allocation and learning (R292, R295) -/

theorem arpAlloc_of_empty (hi : cache[i].state = .empty)
    (hlow : ∀ j : Fin 16, j.val < i.val → cache[j].state ≠ .empty) : arpAlloc cache = ⟨i, false, 0#32⟩ := by
  rw [arpAlloc, arpFirstEmpty_eq_some hi hlow]

theorem arpAlloc_of_full (hfull : ∀ j : Fin 16, cache[j].state ≠ .empty) (hi : arpOldest cache = i) :
    arpAlloc cache = ⟨i, true, cache[i].ip⟩ := by
  subst hi
  rw [arpAlloc, arpFirstEmpty_eq_none hfull]

section
variable {mac : Mac} {now : Word}

theorem arpLearn_of_hit {insert : Bool} (hf : arpFind cache ip = some i) :
    arpLearn cache ip mac now insert = ⟨1#32, slotWord i, 0#32, cache.set i ⟨.resolved, ip, mac, now⟩⟩ := by
  rw [arpLearn, hf]

theorem arpLearn_of_noInsert (hf : arpFind cache ip = none) :
    arpLearn cache ip mac now false = ⟨0#32, 0#32, 0#32, cache⟩ := by
  rw [arpLearn, hf]
  rfl

theorem arpLearn_of_insert {a : ArpSlot} (hf : arpFind cache ip = none) (ha : arpAlloc cache = a) :
    arpLearn cache ip mac now true =
      ⟨insertFlags a.evicted, slotWord a.slot, a.evip, cache.set a.slot ⟨.resolved, ip, mac, now⟩⟩ := by
  rw [arpLearn, hf, ← ha]
  rfl

end
end

/-! ## `ARP_RESOLVE` and `ARP_UPDATE` (R293, R294) -/

theorem arpResolveEffect_of_resolved {s : State} {i : Fin 16} (hf : arpFind s.arp s.p.p0 = some i)
    (hi : s.arp[i].state = .resolved) : arpResolveEffect s = arpHitEffect i s := by
  rw [arpResolveEffect, hf]
  exact if_pos hi

theorem arpResolveEffect_of_pending {s : State} {i : Fin 16} (hf : arpFind s.arp s.p.p0 = some i)
    (hi : s.arp[i].state = .pending) : arpResolveEffect s = arpPendingEffect i s := by
  rw [arpResolveEffect, hf]
  exact if_neg (by rw [hi]; decide)

theorem arpResolveEffect_of_miss {s : State} {a : ArpSlot} (hf : arpFind s.arp s.p.p0 = none)
    (ha : arpAlloc s.arp = a) :
    arpResolveEffect s = .done .arpNew { s with
      arp := s.arp.set a.slot ⟨.pending, s.p.p0, 0#48, s.p.p1⟩
      p := { s.p with p5 := insertFlags a.evicted, p6 := slotWord a.slot, p7 := a.evip } } := by
  rw [arpResolveEffect, hf, ← ha]
  rfl

theorem exec_arpResolve_of_done {s u : State} {c : PpResult} (hb : s.ppBusy = true)
    (he : arpResolveEffect s = .done c u) : exec .arpResolve s = .next (u.completed c) :=
  ppComplete_of_done hb rfl (admitted_zero _ _) he

/-- Settles O51: what the lookup answers for each kind of entry decides the effect. -/
theorem arpResolveLooksUp : Obligations.ArpResolveLooksUp := by
  intro s hinv hb i
  refine ⟨fun hi hip => ?_, fun hi hip => ?_, fun hmiss hi hlow => ?_⟩
  · have hf := arpFind_eq_some hinv.arpUnique (by rw [hi]; decide) hip
    rw [← macLo_eq_ofNat, ← macHi_eq_ofNat]
    exact exec_arpResolve_of_done hb (arpResolveEffect_of_resolved hf hi)
  · have hf := arpFind_eq_some hinv.arpUnique (by rw [hi]; decide) hip
    exact exec_arpResolve_of_done hb (arpResolveEffect_of_pending hf hi)
  · exact exec_arpResolve_of_done hb (arpResolveEffect_of_miss (arpFind_eq_none hmiss) (arpAlloc_of_empty hi hlow))

/-- Settles O52: the evicted slot is the one `arpOldest` answers. -/
theorem arpResolveEvictsTheOldest : Obligations.ArpResolveEvictsTheOldest := by
  intro s hb hfull
  obtain ⟨hmin, hlow⟩ := arpOldest_eq_iff.1 (Eq.refl (arpOldest s.arp))
  have hf := arpFind_eq_none fun j _ => (hfull j).2
  have ha := arpAlloc_of_full (fun j => (hfull j).1) rfl
  exact ⟨arpOldest s.arp, hmin, hlow, exec_arpResolve_of_done hb (arpResolveEffect_of_miss hf ha)⟩

theorem arpUpdateCheck_of_long {s : State} (h : 0x10000 ≤ s.p.p2.toNat) : arpUpdateCheck s = some .errBadArg :=
  if_neg (by rw [fits16_iff]; omega)

theorem arpUpdateCheck_of_fits {s : State} (h : s.p.p2.toNat < 0x10000) : arpUpdateCheck s = none :=
  if_pos ((fits16_iff _).2 h)

/-- The command stores and reports what learning answers. -/
theorem exec_arpUpdate_of_learned {s : State} {l : Learned} (hb : s.ppBusy = true) (hfits : s.p.p2.toNat < 0x10000)
    (hl : arpLearn s.arp s.p.p0 (s.p.p2.extractLsb' 0 16 ++ s.p.p1) s.p.p3 true = l) :
    exec .arpUpdate s = .next ({ s with
      arp := l.cache
      p := { s.p with p5 := l.flags, p6 := l.slot, p7 := l.evip } }.completed .ok) := by
  subst hl
  exact ppComplete_of_done hb (arpUpdateCheck_of_fits hfits) (admitted_zero _ _) rfl

/-- Settles O53: the clauses about `learn`, and the command's from them. -/
theorem arpUpdateLearns : Obligations.ArpUpdateLearns := by
  intro s mac hinv hb hmac
  subst hmac
  refine ⟨fun hlong => ppComplete_of_check hb (arpUpdateCheck_of_long hlong), fun hfits i => ⟨fun hi hip => ?_,
    fun hmiss hi hlow => ?_, fun hfull hmin hlow => ?_⟩, fun ip now hmiss => ?_, fun ip now insert i hi hip => ?_,
    fun ip now i hmiss => ⟨fun hi hlow => ?_, fun hfull hmin hlow => ?_⟩⟩
  · exact exec_arpUpdate_of_learned hb hfits (arpLearn_of_hit (arpFind_eq_some hinv.arpUnique hi hip))
  · exact exec_arpUpdate_of_learned hb hfits
      (arpLearn_of_insert (arpFind_eq_none hmiss) (arpAlloc_of_empty hi hlow))
  · exact exec_arpUpdate_of_learned hb hfits (arpLearn_of_insert (arpFind_eq_none fun j _ => (hfull j).2)
      (arpAlloc_of_full (fun j => (hfull j).1) (arpOldest_eq_iff.2 ⟨hmin, hlow⟩)))
  · exact arpLearn_of_noInsert (arpFind_eq_none hmiss)
  · exact arpLearn_of_hit (arpFind_eq_some hinv.arpUnique hi hip)
  · exact arpLearn_of_insert (arpFind_eq_none hmiss) (arpAlloc_of_empty hi hlow)
  · exact arpLearn_of_insert (arpFind_eq_none hmiss) (arpAlloc_of_full hfull (arpOldest_eq_iff.2 ⟨hmin, hlow⟩))

/-! ## `IP4_NEXTHOP` (R297) -/

theorem onSubnet_iff (s : State) (dst : Word) :
    onSubnet s dst = true ↔ dst &&& s.ip4Mask = s.ip4Addr &&& s.ip4Mask := beq_iff_eq

/-- Settles O50, by the two tests in their order. -/
theorem nextHopIsChosen : Obligations.NextHopIsChosen := by
  intro s hb
  refine ⟨fun hon => ?_, fun hoff hgw => ?_, fun hoff hgw => ?_⟩
  · exact ppComplete_of_done hb rfl (admitted_zero _ _) (if_pos ((onSubnet_iff s _).2 hon))
  · exact ppComplete_of_done hb rfl (admitted_zero _ _) ((if_neg (mt (onSubnet_iff s _).1 hoff)).trans (if_pos hgw))
  · exact ppComplete_of_raised hb rfl (admitted_zero _ _)
      ((if_neg (mt (onSubnet_iff s _).1 hoff)).trans (if_neg (not_not.2 hgw)))

/-! ## `UDP_BIND` and `UDP_UNBIND` (R298, R299) -/

theorem portTaken_eq_true_iff (ports : Vector Half 8) (k : Nat) (port : Half) :
    portTaken ports k port = true ↔ ∃ j : Fin 8, j.val ≠ k ∧ ports[j] = port := by
  simp [portTaken]

theorem setPort_of_slot {k : Fin 8} {n : Nat} (h : k.val = n) (port : Half) (s : State) :
    setPort n port s = { s with udpPort := s.udpPort.set k port } := by
  subst h
  exact dif_pos k.isLt

theorem udpBind_badArg_iff (s : State) :
    (decide (s.p.p0.toNat ≥ 8) || s.p.p1 == 0#32 || !fits16 s.p.p1) = true ↔
      8 ≤ s.p.p0.toNat ∨ s.p.p1 = 0#32 ∨ 0xFFFF < s.p.p1.toNat := by
  simp only [Bool.or_eq_true, decide_eq_true_iff, beq_iff_eq, Bool.not_eq_true', fits16_eq_decide,
    decide_eq_false_iff_not, Nat.not_lt, or_assoc]
  rfl

/-- After the test of the operands, the other slots decide. -/
theorem udpBindCheck_of_args {s : State} {k : Fin 8} (hk : k.val = s.p.p0.toNat) (hnz : s.p.p1 ≠ 0#32)
    (hfits : s.p.p1.toNat ≤ 0xFFFF) :
    udpBindCheck s = if portTaken s.udpPort k (lo16 s.p.p1) then some .errPortInUse else none := by
  rw [hk]
  refine if_neg (mt (udpBind_badArg_iff s).1 ?_)
  exact not_or.2 ⟨by omega, not_or.2 ⟨hnz, Nat.not_lt.2 hfits⟩⟩

theorem udpUnbindCheck_of_slot {s : State} {k : Fin 8} (hk : k.val = s.p.p0.toNat) : udpUnbindCheck s = none :=
  if_neg (by omega)

/-- Settles O54, by the checks in their order. -/
theorem portsAreBoundAndUnbound : Obligations.PortsAreBoundAndUnbound := by
  intro s port hb hport
  subst hport
  refine ⟨fun hbad => ?_, fun hslot => ?_, fun k hk => ⟨fun hnz hfits => ⟨fun ⟨j, hjk, hj⟩ => ?_, fun hfree => ?_⟩, ?_⟩⟩
  · exact ppComplete_of_check hb (if_pos ((udpBind_badArg_iff s).2 hbad))
  · exact ppComplete_of_check hb (if_pos hslot)
  · have htaken := (portTaken_eq_true_iff s.udpPort k (lo16 s.p.p1)).2 ⟨j, Fin.val_ne_of_ne hjk, hj⟩
    exact ppComplete_of_check hb ((udpBindCheck_of_args hk hnz hfits).trans (if_pos htaken))
  · have hnot : ¬portTaken s.udpPort k (lo16 s.p.p1) = true := by
      rw [portTaken_eq_true_iff]
      exact fun ⟨j, hjk, hj⟩ => hfree j (Fin.ne_of_val_ne hjk) hj
    exact ppComplete_of_done hb ((udpBindCheck_of_args hk hnz hfits).trans (if_neg hnot)) (admitted_zero _ _)
      (congrArg (PpEnd.done .ok) (setPort_of_slot hk _ s))
  · exact ppComplete_of_done hb (udpUnbindCheck_of_slot hk) (admitted_zero _ _)
      (congrArg (PpEnd.done .ok) (setPort_of_slot hk _ s))

end Sys2Proof.Machine
end

section
/-! The invariant of the machine (R26, R30, R39, R41, R44, R190, R296, R301): kept by every shared operation, so by
every operation of the table, and so by every step. -/

namespace Sys2Proof.Machine

/-- A table after one of its slots is written. -/
theorem getElem_set_eq_ite {α : Type} {n : Nat} (v : Vector α n) (i j : Fin n) (x : α) :
    (v.set i x)[j] = if j = i then x else v[j] := by
  rw [Fin.getElem_fin, Vector.getElem_set]
  exact if_congr (Fin.val_inj.trans eq_comm) rfl rfl

/-! ## The ARP cache (R296) -/

/-- The clauses of the invariant about the cache. -/
structure CacheOk (cache : Vector ArpEntry 16) : Prop where
  unique : ∀ i j : Fin 16,
    cache[i].state ≠ .empty → cache[j].state ≠ .empty → cache[i].ip = cache[j].ip → i = j
  empty : ∀ i : Fin 16, cache[i].state = .empty → cache[i] = ArpEntry.zero
  pending : ∀ i : Fin 16, cache[i].state = .pending → cache[i].mac = 0#48

theorem State.Inv.cacheOk {s : State} (h : s.Inv) : CacheOk s.arp := ⟨h.arpUnique, h.arpEmpty, h.arpPending⟩

theorem State.Inv.with_cache {s : State} (h : s.Inv) {cache : Vector ArpEntry 16} (hc : CacheOk cache) (p : PRegs) :
    State.Inv { s with arp := cache, p := p } :=
  { h with arpUnique := hc.unique, arpEmpty := hc.empty, arpPending := hc.pending }

section
variable {cache : Vector ArpEntry 16} (h : CacheOk cache)
include h

/-- A slot written in use, without MAC if `PENDING`, for an address no other entry holds. -/
theorem CacheOk.set {i : Fin 16} {e : ArpEntry} (hused : e.state ≠ .empty) (hmac : e.state = .pending → e.mac = 0#48)
    (hip : ∀ j : Fin 16, j ≠ i → cache[j].state ≠ .empty → cache[j].ip ≠ e.ip) : CacheOk (cache.set i e) := by
  refine ⟨fun j k hj hk hjk => ?_, fun j hj => ?_, fun j hj => ?_⟩
  · by_cases hji : j = i <;> by_cases hki : k = i <;>
      simp only [getElem_set_eq_ite, hji, hki, reduceIte] at hj hk hjk
    · exact hji.trans hki.symm
    · exact absurd hjk.symm (hip k hki hk)
    · exact absurd hjk (hip j hji hj)
    · exact h.unique j k hj hk hjk
  · by_cases hji : j = i <;> simp only [getElem_set_eq_ite, hji, reduceIte] at hj ⊢
    · exact absurd hj hused
    · exact h.empty j hj
  · by_cases hji : j = i <;> simp only [getElem_set_eq_ite, hji, reduceIte] at hj ⊢
    · exact hmac hj
    · exact h.pending j hj

/-- An entry in use is rewritten for the address it holds. -/
theorem CacheOk.rewrite {i : Fin 16} {e : ArpEntry} (hi : cache[i].state ≠ .empty) (hip : cache[i].ip = e.ip)
    (hused : e.state ≠ .empty) (hmac : e.state = .pending → e.mac = 0#48) : CacheOk (cache.set i e) :=
  h.set hused hmac fun j hji hj hjp => hji (h.unique j i hj hi (hjp.trans hip.symm))

/-- An entry for an address the cache does not hold may go to any slot. -/
theorem CacheOk.insert {e : ArpEntry} (hf : arpFind cache e.ip = none) (hused : e.state ≠ .empty)
    (hmac : e.state = .pending → e.mac = 0#48) (i : Fin 16) : CacheOk (cache.set i e) :=
  h.set hused hmac fun j _ hj => arpFind_none hf j hj

theorem CacheOk.learn (ip : Word) (mac : Mac) (now : Word) (insert : Bool) :
    CacheOk (arpLearn cache ip mac now insert).cache := by
  rcases arpLearn_cases cache ip mac now insert with ⟨i, hf, e⟩ | ⟨hf, -, e⟩ | ⟨-, -, e⟩ <;> rw [e]
  · obtain ⟨hi, hip⟩ := arpFind_some hf
    exact h.rewrite hi hip (by simp) (by simp)
  · exact h.insert hf (by simp) (by simp) _
  · exact h

end

/-! ## The port table (R301) -/

/-- The clause of the invariant about the port table. -/
def PortsOk (ports : Vector Half 8) : Prop := ∀ j k : Fin 8, ports[j] ≠ 0#16 → ports[j] = ports[k] → j = k

theorem State.Inv.with_ports {s : State} (h : s.Inv) {ports : Vector Half 8} (hp : PortsOk ports) :
    State.Inv { s with udpPort := ports } := { h with ports := hp }

/-- A slot is set to 0, or to a port that no other slot holds. -/
theorem PortsOk.set {ports : Vector Half 8} (h : PortsOk ports) {i : Fin 8} {port : Half}
    (hfree : port ≠ 0#16 → ∀ j : Fin 8, j ≠ i → ports[j] ≠ port) : PortsOk (ports.set i port) := by
  intro j k hj hjk
  by_cases hji : j = i <;> by_cases hki : k = i <;> simp only [getElem_set_eq_ite, hji, hki, reduceIte] at hj hjk
  · exact hji.trans hki.symm
  · exact absurd hjk.symm (hfree hj k hki)
  · exact absurd hjk (hfree (hjk ▸ hj) j hji)
  · exact h j k hj hjk

/-- Setting a port the table does not hold elsewhere, or 0; an index out of range changes nothing. -/
theorem State.Inv.setPort {s : State} (h : s.Inv) {n : Nat} {port : Half}
    (hfree : port ≠ 0#16 → ∀ j : Fin 8, j.val ≠ n → s.udpPort[j] ≠ port) : (setPort n port s).Inv := by
  by_cases hn : n < 8
  · rw [setPort_of_slot (k := ⟨n, hn⟩) rfl]
    exact h.with_ports (PortsOk.set h.ports fun hz j hj => hfree hz j (Fin.val_ne_of_ne hj))
  · rw [Machine.setPort, dif_neg hn]
    exact h

/-! ## The shared operations -/

section
variable {s : State} (h : s.Inv)
include h

theorem State.Inv.with_handed (l : List Handover) : State.Inv { s with handed := l } := { h with }

theorem State.Inv.with_p (p : PRegs) : State.Inv { s with p := p } := { h with }

theorem State.Inv.with_mem {m : Memory} (hm : memoryWf m = true) (p : PRegs) :
    State.Inv { s with mem := m, p := p } := { h with memory := hm }

theorem State.Inv.readReg (v : Word) : (readReg v s).Inv := { h with }

theorem State.Inv.setEvent (e : EventBit) : (setEvent e s).Inv := { h with }

theorem State.Inv.setEventIf (ioc : Bool) (e : EventBit) : (setEventIf ioc e s).Inv := by
  cases ioc with
  | false => exact h
  | true => exact h.setEvent e

theorem State.Inv.count (n : CounterName) : (count n s).Inv := { h with }

/-- The bus-error action stops both rings, so that `HALTED` contradicts neither. -/
theorem State.Inv.busError : (busError s).Inv := { h with txEnabled := nofun, rxEnabled := nofun }

theorem State.Inv.ppFinish (c : PpResult) : (ppFinish c s).Inv := { h with }

theorem State.Inv.rxStop : (rxStop s).Inv := { h with rxEnabled := nofun }

/-- Reset keeps memory, and everything else the invariant speaks of is zero. -/
theorem State.Inv.resetBlock : (resetBlock s).Inv where
  memory := h.memory
  tdsr := rfl
  rdsr := rfl
  tdcur := rfl
  rdcur := rfl
  txEnabled := nofun
  rxEnabled := nofun
  mdioPending := nofun
  arpUnique i j hi := absurd (by simp [State.reset, ArpEntry.zero]) hi
  arpEmpty i _ := by simp [State.reset]
  arpPending i hi := by simp [State.reset, ArpEntry.zero] at hi
  ports j k hj := absurd (by simp [State.reset]) hj

end

/-! ## Register accesses (40_mmio) -/

theorem accessReadOnly_inv {v : Word} {a : RegAccess} {s t : State} (h : s.Inv)
    (ht : accessReadOnly v a s = .next t) : t.Inv := by
  rcases accessReadOnly_cases ht with ⟨-, rfl⟩ | ⟨d, -, rfl⟩
  · exact h.readReg v
  · exact h

theorem accessGated_inv {v : Word} {ok : Bool} {write : Word → State} {a : RegAccess} {s t : State} (h : s.Inv)
    (ht : accessGated v ok write a s = .next t) (hw : ∀ d, ok = true → (write d).Inv) : t.Inv := by
  rcases accessGated_cases ht with ⟨-, rfl⟩ | ⟨d, -, hok, rfl⟩ | ⟨d, -, -, rfl⟩
  · exact h.readReg v
  · exact hw d hok
  · exact h

/-- A ring that stays active after a write with `EN = 1` is enabled as before; with `EN = 0` none stays active. -/
theorem State.Inv.writeCtrl {s : State} (h : s.Inv) (d : Word) : (writeCtrl d s).Inv := by
  cases hd : d.getLsbD 31 with
  | true => rw [writeCtrl_of_reset hd]; exact h.resetBlock
  | false =>
    rw [writeCtrl_of_noReset hd]
    refine { h with txEnabled := fun ha => ?_, rxEnabled := fun ha => ?_ }
    · obtain ⟨hactive, hen⟩ := Bool.and_eq_true_iff.1 ha
      exact ⟨hen, (h.txEnabled hactive).2⟩
    · obtain ⟨hactive, hen⟩ := Bool.and_eq_true_iff.1 ha
      exact ⟨hen, (h.rxEnabled hactive).2⟩

theorem ringBase_mod_eight (d : Word) : (ringBase d).toNat % 8 = 0 := by
  rw [ringBase_eq, BitVec.toNat_ofNat]
  omega

theorem registerAccess_inv {i : Instr} {s t : State} (hf : formatOf i = .mmio) (h : s.Inv)
    (ht : exec i s = .next t) : t.Inv := by
  cases i with
  | ctrl a => exact accessGated_inv h ht fun d _ => h.writeCtrl d
  | tdsr a =>
    exact accessGated_inv h ht fun d _ => { h with tdsr := ringBase_mod_eight d, tdcur := ringBase_mod_eight d }
  | rdsr a =>
    exact accessGated_inv h ht fun d _ => { h with rdsr := ringBase_mod_eight d, rdcur := ringBase_mod_eight d }
  | tdar a =>
    refine accessGated_inv h ht fun d hok => { h with txEnabled := fun _ => ?_ }
    simpa using hok
  | rdar a =>
    refine accessGated_inv h ht fun d hok => { h with rxEnabled := fun _ => ?_ }
    simpa using hok
  | mmfr a => exact accessGated_inv h ht fun d _ => { h with mdioPending := id }
  | eir a | eimr a | rxmax a | maclo a | machi a | ppCmd a | p0 a | p1 a | p2 a | p3 a | p4 a | p5 a | p6 a | p7 a
  | ip4Addr a | ip4Mask a | ip4Gw a | ip4Ttl a | arpSel a =>
    exact accessGated_inv h ht fun _ _ => { h with }
  | status a | tdcur a | rdcur a | cntTxSent a | cntTxErr a | cntRxStored a | cntRxNodesc a | cntRxOversize a
  | cntL2ArpAcc a | cntL2Ip4Acc a | cntL2ArpDrop a | cntL2Ip4Drop a | cntL2OtherDrop a | cntArpBad a | cntIp4Badhdr a
  | cntIp4Badcsum a | cntIp4Baddst a | cntIp4Badproto a | cntIcmpDrop a | cntUdpBadlen a | cntUdpNoport a | ppStatus a
  | arpIp a | arpMaclo a | arpMachi a | arpTs a | udpPort0 a | udpPort1 a | udpPort2 a | udpPort3 a | udpPort4 a
  | udpPort5 a | udpPort6 a | udpPort7 a | reserved _ a =>
    exact accessReadOnly_inv h ht
  | _ => cases hf

/-! ## Management frames (41_mdio) -/

theorem managementFrame_inv {i : Instr} {s t : State} (hf : formatOf i = .mmfr) (h : s.Inv)
    (ht : exec i s = .next t) : t.Inv := by
  cases i with
  | mdioRead pa ra ta data | mdioWrite pa ra ta data =>
    obtain rfl := Host.Outcome.next.inj ht
    split
    · exact { h with mdioPending := nofun }
    · exact h
  | mmfrNoOperation word =>
    obtain rfl := Host.Outcome.next.inj ht
    split
    · exact h
    · rename_i hidle
      exact { h with mdioPending := fun hbusy => absurd hbusy hidle }
  | _ => cases hf

/-! ## The engines (42_tx_dma, 43_rx_dma) -/

theorem nextDesc_mod_eight {base d : Word} (hbase : base.toNat % 8 = 0) (hd : d.toNat % 8 = 0) (wrap : Bool) :
    (nextDesc base d wrap).toNat % 8 = 0 := by
  cases wrap with
  | true => exact hbase
  | false =>
    have hnext : (d + 8#32).toNat % 8 = 0 := by
      rw [BitVec.toNat_add, BitVec.toNat_ofNat]
      omega
    exact hnext

section
variable {s : State} (h : s.Inv)
include h

/-- Completing a Tx descriptor: a write-back, and the ring pointer advances. -/
theorem State.Inv.with_tdcur {m : Memory} (hm : memoryWf m = true) (wrap : Bool) :
    State.Inv { s with mem := m, tdcur := nextDesc s.tdsr s.tdcur wrap } :=
  { h with memory := hm, tdcur := nextDesc_mod_eight h.tdsr h.tdcur wrap }

/-- Completing an Rx descriptor. -/
theorem State.Inv.with_rdcur {m : Memory} (hm : memoryWf m = true) (wrap : Bool) :
    State.Inv { s with mem := m, rdcur := nextDesc s.rdsr s.rdcur wrap } :=
  { h with memory := hm, rdcur := nextDesc_mod_eight h.rdsr h.rdcur wrap }

theorem rxScreen_inv {f : List Byte} {t : State} (ht : rxScreen f s = some t) : t.Inv := by
  rcases rxScreen_cases f s with ⟨-, e⟩ | ⟨-, -, e⟩ | ⟨-, -, e⟩ <;> rw [e] at ht <;> cases ht
  · exact h.count _
  · exact h.count _

theorem rxStore_inv {f : List Byte} {c : DescCtl} {buf : Word} {t : State} (ht : rxStore f c buf s = some t) :
    t.Inv := by
  rcases rxStore_cases f c buf s with ⟨-, e⟩ | ⟨-, e⟩ <;> rw [e] at ht <;> cases ht
  have hcounted := (h.count .rxStored).setEventIf c.ioc .rxf
  simpa using hcounted.with_rdcur (memoryWf_store32 (memoryWf_storeBytes h.memory buf f) _ _) c.wrap

theorem loopbackReceive_inv {f : List Byte} {t : State} (ht : loopbackReceive f s = some t) : t.Inv := by
  rcases loopbackReceive_cases f s with ⟨u, hu, e⟩ | ⟨-, -, -, e⟩ | ⟨u, -, -, -, hu, e⟩ | e <;> rw [e] at ht <;>
    cases ht
  · exact rxScreen_inv h hu
  · exact h.rxStop
  · exact rxStore_inv h hu

theorem txDeliver_inv {f : List Byte} {t : State} (ht : txDeliver f s = some t) : t.Inv := by
  rcases txDeliver_cases f s with ⟨-, e⟩ | ⟨-, e⟩ <;> rw [e] at ht
  · cases ht
    exact { h with }
  · exact loopbackReceive_inv h ht

theorem State.Inv.txReject (c : DescCtl) : (txReject c s).Inv := by
  have hcounted := (h.count .txErr).setEventIf c.ioc .txf
  simpa [Machine.txReject] using hcounted.with_tdcur (memoryWf_store32 h.memory s.tdcur _) c.wrap

theorem State.Inv.txFinish (c : DescCtl) : (txFinish c s).Inv := by
  have hcounted := (h.count .txSent).setEventIf c.ioc .txf
  simpa [Machine.txFinish] using hcounted.with_tdcur (memoryWf_store32 h.memory s.tdcur _) c.wrap

theorem State.Inv.txProcess (c : DescCtl) (buf : Word) : (txProcess c buf s).Inv := by
  rcases txProcess_cases c buf s with ⟨-, e⟩ | ⟨-, e⟩ | ⟨t, -, -, ht, e⟩ <;> rw [e]
  · exact h.txReject c
  · exact h.busError
  · exact (txDeliver_inv h ht).txFinish c

theorem txDescriptor_inv {i : Instr} {t : State} (hf : formatOf i = .txDesc) (ht : exec i s = .next t) : t.Inv := by
  cases i with
  | txd c buf =>
    obtain rfl := Host.Outcome.next.inj ht
    split
    · exact h.txProcess c buf
    · exact h
  | txdStop c =>
    cases ht
    exact { h with txEnabled := nofun }
  | _ => cases hf

theorem rxDescriptor_inv {i : Instr} {t : State} (hf : formatOf i = .rxDesc) (ht : exec i s = .next t) : t.Inv := by
  cases i with
  | rxd c buf =>
    obtain rfl := Host.Outcome.next.inj ht
    split
    · exact h
    split
    · rename_i hu; exact rxScreen_inv h hu
    split
    · rename_i hu; exact rxStore_inv h hu
    · exact h.busError
  | rxdStop c =>
    obtain rfl := Host.Outcome.next.inj ht
    split
    · exact h
    split
    · rename_i hu; exact rxScreen_inv h hu
    · exact h.rxStop
  | _ => cases hf

end

/-! ## Commands (44_pp_build to 46_pp_tables) -/

section
variable {m : Memory} (hm : memoryWf m = true)
include hm

theorem memoryWf_putEthHdr (f : Word) (dst src : Mac) (etherType : Half) :
    memoryWf (putEthHdr f dst src etherType m) = true :=
  memoryWf_putBe16 (memoryWf_putMac (memoryWf_putMac hm _ _) _ _) _ _

theorem memoryWf_putArpFrame (s : State) (dst : Mac) (oper : Half) (tha : Mac) (tpa : Word) :
    memoryWf (putArpFrame s dst oper tha tpa m) = true := by
  rw [putArpFrame_eq]
  exact memoryWf_storeBytes hm _ _

theorem memoryWf_putIp4Hdr (s : State) : memoryWf (putIp4Hdr s m) = true := by
  rw [putIp4Hdr_eq]
  exact memoryWf_storeBytes hm _ _

theorem memoryWf_putUdpHdr (s : State) : memoryWf (putUdpHdr s m) = true := by
  rw [putUdpHdr_eq]
  exact memoryWf_storeBytes hm _ _

end

section
variable {s : State} (h : s.Inv)
include h

theorem icmpEchoReqEffect_inv : (icmpEchoReqEffect s).Finishes State.Inv := by
  rw [icmpEchoReqEffect_eq]
  exact h.with_mem (memoryWf_putCksum (memoryWf_storeBytes h.memory _ _) _ _ _) _

theorem icmpEchoReplyEffect_inv : (icmpEchoReplyEffect s).Finishes State.Inv := by
  unfold icmpEchoReplyEffect
  split
  · exact h.with_mem (memoryWf_putEchoReply h.memory) _
  · trivial

theorem udpHdrEffect_inv (csum : Bool) : (udpHdrEffect csum s).Finishes State.Inv := by
  refine h.with_mem ?_ _
  split
  · exact memoryWf_putBe16 (memoryWf_putUdpHdr h.memory s) _ _
  · exact memoryWf_putUdpHdr h.memory s

theorem ip4NexthopEffect_inv : (ip4NexthopEffect s).Finishes State.Inv := by
  unfold ip4NexthopEffect
  split
  · exact h.with_p _
  split
  · exact h.with_p _
  · trivial

theorem arpResolveEffect_inv : (arpResolveEffect s).Finishes State.Inv := by
  rcases arpResolveEffect_cases s with ⟨i, hf, hi, e⟩ | ⟨i, -, -, e⟩ | ⟨hf, e⟩ <;> rw [e]
  · obtain ⟨hused, -⟩ := arpFind_some hf
    exact h.with_cache (h.cacheOk.rewrite (e := { s.arp[i] with ts := s.p.p1 }) hused rfl hused (h.arpPending i)) _
  · exact h.with_p _
  · exact h.with_cache (h.cacheOk.insert hf (by simp) (fun _ => rfl) _) _

theorem icmpStage_inv (src dst : Word) (l4len : Nat) : (icmpStage src dst l4len s).Finishes State.Inv := by
  rcases icmpStage_cases src dst l4len s with ⟨-, e⟩ | ⟨-, -, e⟩ <;> rw [e]
  · exact h.count _
  · exact h.with_p _

theorem udpStage_inv (src dst : Word) (l4len : Nat) : (udpStage src dst l4len s).Finishes State.Inv := by
  rcases udpStage_cases src dst l4len s with ⟨-, e⟩ | ⟨-, -, -, -, e⟩ | ⟨k, -, -, -, -, e⟩ <;> rw [e]
  · exact h.count _
  · exact h.count _
  · exact h.with_p _

theorem arpStage_inv (now : Word) : (arpStage now s).Finishes State.Inv := by
  rcases arpStage_cases now s with ⟨-, e⟩ | ⟨-, e⟩ <;> rw [e]
  · exact h.count _
  · exact h.with_cache (h.cacheOk.learn _ _ _ _) _

theorem ip4Stage_inv (len : Nat) : (ip4Stage len s).Finishes State.Inv := by
  rcases ip4Stage_cases len s with e | e | e | e | ⟨-, e⟩ | ⟨-, e⟩ <;> rw [e]
  · exact h.count _
  · exact h.count _
  · exact h.count _
  · exact h.count _
  · exact icmpStage_inv h _ _ _
  · exact udpStage_inv h _ _ _

theorem l2Stage_inv (len : Nat) (now : Word) : (l2Stage len now s).Finishes State.Inv := by
  rcases l2Stage_cases len now s with e | e | e | e | ⟨-, -, e⟩ | ⟨-, -, e⟩ <;> rw [e]
  · exact h.count _
  · exact h.count _
  · exact h.count _
  · exact h.count _
  · exact arpStage_inv (h.count _) now
  · exact ip4Stage_inv (h.count _) len

/-- A bind that passes its checks sets a port that no other slot holds (R298). -/
theorem udpBind_inv (hc : udpBindCheck s = none) : (setPort s.p.p0.toNat (lo16 s.p.p1) s).Inv := by
  have hfree : portTaken s.udpPort s.p.p0.toNat (lo16 s.p.p1) = false := by
    unfold udpBindCheck at hc
    split at hc
    · cases hc
    split at hc
    · cases hc
    · rename_i hnot
      exact Bool.eq_false_iff.2 hnot
  exact h.setPort fun _ => portTaken_false hfree

end

/-- Every command is one `ppComplete` whose effect, once the operands are checked, finishes in the invariant. -/
theorem exec_ppCommand_inv (i : Instr) {s : State} (hf : formatOf i = .ppCmd) (h : s.Inv) :
    ∃ check foot len effect, exec i s = ppComplete check foot len effect s ∧
      (check = none → effect.Finishes State.Inv) := by
  have hm := h.memory
  cases i with
  | nop | cksum => exact ⟨_, _, _, _, rfl, fun _ => h.with_p _⟩
  | ppIllegal word => exact ⟨_, _, _, _, rfl, nofun⟩
  | ethHdr => exact ⟨_, _, _, _, rfl, fun _ => h.with_mem (memoryWf_putEthHdr hm _ _ _ _) _⟩
  | arpReq | arpReply => exact ⟨_, _, _, _, rfl, fun _ => h.with_mem (memoryWf_putArpFrame hm _ _ _ _ _) _⟩
  | ip4Hdr => exact ⟨_, _, _, _, rfl, fun _ => h.with_mem (memoryWf_putCksum (memoryWf_putIp4Hdr hm s) _ _ _) _⟩
  | icmpEchoReq => exact ⟨_, _, _, _, rfl, fun _ => icmpEchoReqEffect_inv h⟩
  | icmpEchoReply => exact ⟨_, _, _, _, rfl, fun _ => icmpEchoReplyEffect_inv h⟩
  | udpHdr csum => exact ⟨_, _, _, _, rfl, fun _ => udpHdrEffect_inv h csum⟩
  | rxClassify => exact ⟨_, _, _, _, rfl, fun _ => l2Stage_inv h _ _⟩
  | ip4Nexthop => exact ⟨_, _, _, _, rfl, fun _ => ip4NexthopEffect_inv h⟩
  | arpResolve => exact ⟨_, _, _, _, rfl, fun _ => arpResolveEffect_inv h⟩
  | arpUpdate => exact ⟨_, _, _, _, rfl, fun _ => h.with_cache (h.cacheOk.learn _ _ _ _) _⟩
  | udpBind => exact ⟨_, _, _, _, rfl, fun hc => udpBind_inv h hc⟩
  | udpUnbind => exact ⟨_, _, _, _, rfl, fun _ => h.setPort fun hz => absurd rfl hz⟩
  | _ => cases hf

theorem ppCommand_inv {i : Instr} {s t : State} (hf : formatOf i = .ppCmd) (h : s.Inv) (ht : exec i s = .next t) :
    t.Inv := by
  obtain ⟨check, foot, len, effect, e, hfin⟩ := exec_ppCommand_inv i hf h
  rw [e] at ht
  refine ppComplete_keeps ht h (fun c u hu => hu.ppFinish c) fun c u hc _ he => ?_
  rw [he] at hfin
  exact hfin hc

/-- Every operation keeps the invariant. -/
theorem exec_inv {i : Instr} {s t : State} (h : s.Inv) (ht : exec i s = .next t) : t.Inv := by
  cases hf : formatOf i with
  | mmio => exact registerAccess_inv hf h ht
  | txDesc => exact txDescriptor_inv h hf ht
  | rxDesc => exact rxDescriptor_inv h hf ht
  | mmfr => exact managementFrame_inv hf h ht
  | ppCmd => exact ppCommand_inv hf h ht

/-! ## The fetch and the step -/

section
variable {s : State} (h : s.Inv)
include h

theorem fetchAccess_inv (addr : Word) (width : Width) (a : RegAccess) :
    (fetchAccess addr width a s).EndsIn State.Inv := by
  rcases fetchAccess_cases addr width a s with e | ⟨i, -, -, -, ⟨f, -, e⟩ | ⟨-, e⟩⟩ <;> rw [e]
  · trivial
  · trivial
  · exact fun t => exec_inv (h.with_handed _)

theorem hostLoad_inv (addr : Word) (width : Width) : (hostLoad addr width s).EndsIn State.Inv := by
  rcases hostLoad_cases addr width s with ⟨-, e⟩ | ⟨f, -, e⟩ | ⟨-, -, e⟩ <;> rw [e]
  · trivial
  · trivial
  · exact (h.readReg _).with_handed _

theorem hostStoreBytes_inv (addr : Word) (bytes : List Byte) :
    (hostStoreBytes addr bytes s).EndsIn State.Inv := by
  rcases hostStoreBytes_cases addr bytes s with ⟨-, e⟩ | ⟨f, -, e⟩ | ⟨-, -, e⟩ <;> rw [e]
  · trivial
  · trivial
  · exact (h.with_mem (memoryWf_storeBytes h.memory addr bytes) s.p).with_handed _

theorem fetchDesc_inv (d : Word) (dec : Word → Word → Instr) : (fetchDesc d dec s).EndsIn State.Inv := by
  rcases fetchDesc_cases d dec s with e | ⟨-, f, -, e⟩ | ⟨-, -, -, e⟩ | ⟨-, -, -, -, e⟩ <;> rw [e]
  · exact h.busError
  · trivial
  · exact fun t => exec_inv h
  · exact fun t => exec_inv h

theorem fetchTx_inv : (fetchTx s).EndsIn State.Inv := by
  unfold fetchTx
  split
  · exact fetchDesc_inv h _ _
  · exact h

theorem fetchRx_inv : (fetchRx s).EndsIn State.Inv := by
  unfold fetchRx
  split
  · exact h
  split
  · rename_i hu; exact rxScreen_inv h hu
  · exact fetchDesc_inv h _ _

theorem fetchMdio_inv : (fetchMdio s).EndsIn State.Inv := fun _ => exec_inv h

theorem fetchPp_inv : (fetchPp s).EndsIn State.Inv := by
  unfold fetchPp
  split
  · trivial
  · exact fun t => exec_inv (h.with_handed _)

/-- Whatever the turn, it ends in the invariant. -/
theorem fetchTurn_inv (turn : Turn) : (fetchTurn turn s).EndsIn State.Inv := by
  cases turn with
  | hostRead addr width =>
    simp only [fetchTurn, fetchHostRead]
    split
    · exact fetchAccess_inv h _ _ _
    · exact hostLoad_inv h _ _
  | hostWrite addr width d =>
    simp only [fetchTurn, fetchHostWrite]
    split
    · exact fetchAccess_inv h _ _ _
    · exact hostStoreBytes_inv h _ _
  | hostStore addr bytes =>
    simp only [fetchTurn, fetchHostStore]
    split
    · trivial
    · exact hostStoreBytes_inv h _ _
  | txdma => exact fetchTx_inv h
  | mdio answer => exact fetchMdio_inv (s := { s with phyIn := answer }) { h with }
  | pp => exact fetchPp_inv h
  | wire frame => exact fetchRx_inv (s := { s with wireIn := frame }) { h with }
  | reset => exact h.resetBlock

end

/-- Settles O8: the fetch of the turn and the operation it runs each keep the invariant. -/
theorem everyStepKeepsTheInvariant : Obligations.EveryStepKeepsTheInvariant := by
  intro s t h ht
  cases hs : s.schedule with
  | nil =>
    rw [step_nil hs] at ht
    cases ht
    exact h
  | cons turn rest =>
    exact step_endsIn hs (fetchTurn_inv (s := { s with schedule := rest }) { h with } turn) ht

end Sys2Proof.Machine
end

section
/-! Reset (70_reset R390 to R392): the register values both resets give, and what stands still from there on. -/

namespace Sys2Proof.Machine

/-! ## The register values -/

/-- Reset writes every register, whatever state it finds (R390). -/
theorem registersAtReset_resetBlock (s : State) : (resetBlock s).registersAtReset where
  ctrl := ⟨rfl, rfl⟩
  events := ⟨rfl, rfl⟩
  status := ⟨rfl, rfl, rfl, rfl, rfl⟩
  rings := ⟨rfl, rfl, rfl, rfl⟩
  receive := rfl
  station := ⟨rfl, rfl⟩
  management := rfl
  counts n := by cases n <;> rfl
  command := ⟨rfl, rfl⟩
  operands := rfl
  layer3 := ⟨rfl, rfl, rfl, rfl⟩
  window := rfl
  cache i := by simp [State.reset, ArpEntry.zero]
  ports k := by simp [State.reset]

/-- The state after power-on has the registers of one that has been reset. -/
theorem registersAtReset_reset : State.reset.registersAtReset := { registersAtReset_resetBlock State.reset with }

section
variable {s : State} (h : s.registersAtReset)
include h

theorem State.registersAtReset.irq_eq_false : s.irq = false := by
  obtain ⟨heir, -⟩ := h.events
  simp [irq_eq, heir]

/-- The invariant speaks of memory and of registers, and these are all zero. -/
theorem State.registersAtReset.inv (hm : memoryWf s.mem = true) : s.Inv := by
  obtain ⟨htx, hrx, hmdio, -, -⟩ := h.status
  obtain ⟨htdsr, hrdsr, htdcur, hrdcur⟩ := h.rings
  exact {
    memory := hm
    tdsr := by rw [htdsr]; rfl
    rdsr := by rw [hrdsr]; rfl
    tdcur := by rw [htdcur]; rfl
    rdcur := by rw [hrdcur]; rfl
    txEnabled := fun ha => by rw [htx] at ha; cases ha
    rxEnabled := fun ha => by rw [hrx] at ha; cases ha
    mdioPending := fun hb => by rw [hmdio] at hb; cases hb
    arpUnique := fun i j hi => absurd (by rw [h.cache i]) hi
    arpEmpty := fun i _ => h.cache i
    arpPending := fun i _ => by rw [h.cache i]
    ports := fun j k hj => absurd (h.ports j) hj }

end

/-- Settles O9: the registers have their reset values and memory lists nothing. -/
theorem resetStateMeetsTheInvariant : Obligations.ResetStateMeetsTheInvariant :=
  registersAtReset_reset.inv memoryWf_reset

/-! ## The two resets -/

/-- A pending write is busy with the `ST` and `OP` of a write, read as one field of four bits (R113, R180). -/
theorem mdioWritePending_iff (s : State) :
    mdioWritePending s = true ↔ s.mdioBusy = true ∧ s.mmfr.extractLsb' 28 4 = 0b0101#4 := by
  simp only [mdioWritePending, Bool.and_eq_true, beq_iff_eq, and_assoc, and_congr_right_iff, ← BitVec.toNat_inj,
    toNat_extractLsb'_eq, BitVec.toNat_ofNat]
  omega

/-- The PHY log after a reset: an abandoned write may or may not have reached the PHY (U6). -/
theorem resetBlock_phyLog_cases (s : State) :
    (resetBlock s).phyLog = s.phyLog ∨
      (mdioWritePending s = true ∧ (resetBlock s).phyLog =
        s.phyLog ++ [.write (mmfrPa s.mmfr) (mmfrRa s.mmfr) (s.mmfr.extractLsb' 0 16)]) := by
  simp only [resetBlock]
  split
  · rename_i hreached
    exact .inr ⟨(Bool.and_eq_true_iff.1 hreached).1, rfl⟩
  · exact .inl rfl

/-- The hardware reset has the effect of the soft reset (R390). -/
theorem step_reset {s : State} {rest : List Turn} (hs : s.schedule = .reset :: rest) :
    step s = .next { resetBlock s with schedule := rest } := step_of_settled hs rfl

/-- Settles O10: both resets are `resetBlock`. -/
theorem bothResetsGiveTheResetValues : Obligations.BothResetsGiveTheResetValues := by
  refine ⟨registersAtReset_reset, fun s d rest hsrst => ⟨resetBlock s, ?_, registersAtReset_resetBlock s,
    (registersAtReset_resetBlock s).irq_eq_false, resetBlock_mem s, resetBlock_wireTx s, resetBlock_platform s,
    resetBlock_schedule s, ?_, step_reset⟩⟩
  · simp only [exec]
    exact accessGated_stores rfl (writeCtrl_of_reset hsrst s)
  · rcases resetBlock_phyLog_cases s with hlog | ⟨hpending, hlog⟩
    · exact .inl hlog
    · obtain ⟨hbusy, hmmfr⟩ := (mdioWritePending_iff s).1 hpending
      exact .inr ⟨hbusy, hmmfr, hlog⟩

/-! ## Turns of agents without an enabled step (log 2) -/

section
variable {s : State} {rest : List Turn}

theorem step_txdma_idle (hs : s.schedule = .txdma :: rest) (ha : s.txActive = false) :
    step s = .next { s with schedule := rest } :=
  step_of_settled hs (if_neg (Bool.eq_false_iff.1 ha))

/-- A command that is not pending does nothing (R221). -/
theorem exec_ppCommand_idle {i : Instr} (hf : formatOf i = .ppCmd) (hb : s.ppBusy = false) : exec i s = .next s := by
  obtain ⟨check, foot, len, effect, e, -⟩ := exec_ppCommand i s hf
  rw [e, ppComplete_idle hb]

theorem ppFootprint_idle (hb : s.ppBusy = false) : ppFootprint s = [] := by
  simp [ppFootprint, ppClaim, hb]

theorem handedAfterPp_idle (hb : s.ppBusy = false) : handedAfterPp s = s.handed := by
  simp [handedAfterPp, hb]

theorem step_pp_idle (hs : s.schedule = .pp :: rest) (hb : s.ppBusy = false) :
    step s = .next { s with schedule := rest } := by
  have hapart : footprintApart s = true := by simp [footprintApart, ppFootprint_idle hb]
  rw [step_pp hs (decode_ppCmd_leBytes4 s.ppCmd) hapart, handedAfterPp_idle hb]
  exact exec_ppCommand_idle (formatOf_decodePp s.ppCmd) hb

/-- The management word stands in `MMFR` already, so storing it again changes nothing (R183, log 17). -/
theorem step_mdio_idle {v : Half} (hs : s.schedule = .mdio v :: rest) (hb : s.mdioBusy = false)
    (hw : mmfrStarts s.mmfr = false) : step s = .next { s with schedule := rest, phyIn := v } := by
  rw [step_mdio hs (decode_mmfr_leBytes4 s.mmfr), decodeMmfr_noOperation hw]
  exact exec_mmfrNoOperation_idle (s := { s with schedule := rest, phyIn := v }) hb s.mmfr

end

/-- Settles O11, agent by agent. -/
theorem nothingMovesAfterReset : Obligations.NothingMovesAfterReset := by
  intro s rest f v h
  obtain ⟨htx, -, hmdio, hpp, -⟩ := h.status
  obtain ⟨hen, -⟩ := h.ctrl
  have hmmfr : mmfrStarts s.mmfr = false := by rw [h.management]; rfl
  exact ⟨h.irq_eq_false, by simp [State.quiescent, htx, hmdio, hpp], fun hs => step_txdma_idle hs htx,
    fun hs => step_pp_idle hs hpp, fun hs => step_mdio_idle hs hmdio hmmfr,
    fun hs => step_wire_of_ignored hs ((rxIgnores_iff s).2 (.inl hen))⟩

end Sys2Proof.Machine
end

section
/-! The events and the activity flags (R353, R354, R356): which events each format of operation can raise, and that only
a register access can clear an event or activate a ring. -/

namespace Sys2Proof.Machine

/-- From `s` to `t` the events `e` have been raised and none cleared, `HALTED` has not been cleared and no ring has
become active. -/
structure Raises (e : BitVec 5) (s t : State) : Prop where
  events : t.eir = s.eir ||| e
  halted : s.halted = true → t.halted = true
  txActive : s.txActive = false → t.txActive = false
  rxActive : s.rxActive = false → t.rxActive = false

/-- The events an operation of a format can raise (R354): BERR alone, or what its engine completes. -/
def mayRaise : Format → BitVec 5 → Prop
  | .mmio, e => e = 0#5
  | .mmfr, e => e = 0#5 ∨ e = 0b00001#5
  | .ppCmd, e => e = 0#5 ∨ e = 0b01000#5
  | .txDesc, e => e = 0b10000#5 ∨ e &&& 0b00110#5 = e
  | .rxDesc, e => e = 0#5 ∨ e = 0b00100#5 ∨ e = 0b10000#5

theorem mayRaise_zero (f : Format) : mayRaise f 0#5 := by
  cases f <;> simp [mayRaise]

theorem raises_of_eq {s t : State} (he : t.eir = s.eir) (hh : t.halted = s.halted) (htx : t.txActive = s.txActive)
    (hrx : t.rxActive = s.rxActive) : Raises 0#5 s t :=
  ⟨by rw [he, BitVec.or_zero], hh.trans, htx.trans, hrx.trans⟩

theorem raises_refl (s : State) : Raises 0#5 s s := raises_of_eq rfl rfl rfl rfl

theorem Raises.trans {e e' : BitVec 5} {s t u : State} (h : Raises e s t) (h' : Raises e' t u) :
    Raises (e ||| e') s u where
  events := by rw [h'.events, h.events, BitVec.or_assoc]
  halted hs := h'.halted (h.halted hs)
  txActive hs := h'.txActive (h.txActive hs)
  rxActive hs := h'.rxActive (h.rxActive hs)

/-- An operation that starts with the events and flags of `s` raises from `s` what it raises. -/
theorem Raises.of_start {e : BitVec 5} {s t u : State} (h : Raises 0#5 s t) (h' : Raises e t u) : Raises e s u :=
  BitVec.zero_or (x := e) ▸ h.trans h'

theorem Raises.events_kept {e : BitVec 5} {s t : State} (h : Raises e s t) : s.eir &&& t.eir = s.eir := by
  rw [h.events]
  ext i hi
  simp +contextual

/-! ## The shared operations -/

theorem raises_setEvent (e : EventBit) (s : State) : Raises e.mask s (setEvent e s) := ⟨rfl, id, id, id⟩

theorem raises_count (n : CounterName) (s : State) : Raises 0#5 s (count n s) := raises_of_eq rfl rfl rfl rfl

theorem raises_busError (s : State) : Raises 0b10000#5 s (busError s) := ⟨rfl, fun _ => rfl, fun _ => rfl, fun _ => rfl⟩

theorem raises_rxStop (s : State) : Raises 0#5 s (rxStop s) := ⟨BitVec.or_zero.symm, id, id, fun _ => rfl⟩

theorem raises_ppFinish (c : PpResult) (s : State) : Raises 0b01000#5 s (ppFinish c s) := ⟨rfl, id, id, id⟩

/-- An event behind its `IOC` bit (R357). -/
theorem raises_setEventIf (ioc : Bool) (e : EventBit) (s : State) :
    Raises (if ioc then e.mask else 0#5) s (setEventIf ioc e s) := by
  cases ioc with
  | true => exact raises_setEvent e s
  | false => exact raises_refl s

theorem raises_of_sameButCommandState {s u : State} (h : sameButCommandState s u) : Raises 0#5 s u := by
  unfold sameButCommandState at h
  exact raises_of_eq (by rw [h]) (by rw [h]) (by rw [h]) (by rw [h])

/-! ## Management frames and commands -/

theorem managementFrame_raises {i : Instr} {s t : State} (hf : formatOf i = .mmfr) (h : exec i s = .next t) :
    ∃ e, mayRaise .mmfr e ∧ Raises e s t := by
  cases i with
  | mdioRead pa ra ta data | mdioWrite pa ra ta data =>
    obtain rfl := Host.Outcome.next.inj h
    split
    · exact ⟨_, .inr rfl, rfl, id, id, id⟩
    · exact ⟨_, .inl rfl, raises_refl s⟩
  | mmfrNoOperation word =>
    obtain rfl := Host.Outcome.next.inj h
    refine ⟨_, .inl rfl, ?_⟩
    split <;> exact raises_of_eq rfl rfl rfl rfl
  | _ => cases hf

theorem ppCommand_raises {i : Instr} {s t : State} (hf : formatOf i = .ppCmd) (h : exec i s = .next t) :
    ∃ e, mayRaise .ppCmd e ∧ Raises e s t := by
  cases hb : s.ppBusy with
  | false =>
    rw [exec_ppCommand_idle hf hb] at h
    cases h
    exact ⟨_, .inl rfl, raises_refl s⟩
  | true =>
    obtain ⟨c, u, e, hu⟩ := exec_ppCommand_completed hf hb
    rw [e] at h
    cases h
    exact ⟨_, .inr rfl, (raises_of_sameButCommandState hu.1).of_start (raises_ppFinish c u)⟩

/-! ## Descriptors -/

theorem rxScreen_raises {f : List Byte} {s t : State} (h : rxScreen f s = some t) : Raises 0#5 s t := by
  rcases rxScreen_cases f s with ⟨-, e⟩ | ⟨-, -, e⟩ | ⟨-, -, e⟩ <;> rw [e] at h <;> cases h
  · exact raises_count _ s
  · exact raises_count _ s

theorem rxStore_raises {f : List Byte} {c : DescCtl} {buf : Word} {s t : State} (h : rxStore f c buf s = some t) :
    Raises (if c.ioc then 0b00100#5 else 0#5) s t := by
  rcases rxStore_cases f c buf s with ⟨-, e⟩ | ⟨-, e⟩ <;> rw [e] at h <;> cases h
  obtain ⟨heir, hh, htx, hrx⟩ := raises_setEventIf c.ioc .rxf (count .rxStored s)
  exact ⟨heir, hh, htx, hrx⟩

/-- A frame received in loopback raises RXF at most. -/
theorem loopbackReceive_raises {f : List Byte} {s t : State} (h : loopbackReceive f s = some t) :
    ∃ e, (e = 0#5 ∨ e = 0b00100#5) ∧ Raises e s t := by
  rcases loopbackReceive_cases f s with ⟨u, hu, e⟩ | ⟨-, -, -, e⟩ | ⟨u, -, -, -, hu, e⟩ | e <;> rw [e] at h <;> cases h
  · exact ⟨_, .inl rfl, rxScreen_raises hu⟩
  · exact ⟨_, .inl rfl, raises_rxStop s⟩
  · exact ⟨_, by split <;> simp, rxStore_raises hu⟩

theorem txDeliver_raises {f : List Byte} {s t : State} (h : txDeliver f s = some t) :
    ∃ e, (e = 0#5 ∨ e = 0b00100#5) ∧ Raises e s t := by
  rcases txDeliver_cases f s with ⟨-, e⟩ | ⟨-, e⟩ <;> rw [e] at h
  · cases h
    exact ⟨_, .inl rfl, raises_of_eq rfl rfl rfl rfl⟩
  · exact loopbackReceive_raises h

theorem txReject_raises (c : DescCtl) (s : State) : Raises (if c.ioc then 0b00010#5 else 0#5) s (txReject c s) := by
  obtain ⟨heir, hh, htx, hrx⟩ := raises_setEventIf c.ioc .txf (count .txErr s)
  exact ⟨heir, hh, htx, hrx⟩

theorem txFinish_raises (c : DescCtl) (s : State) : Raises (if c.ioc then 0b00010#5 else 0#5) s (txFinish c s) := by
  obtain ⟨heir, hh, htx, hrx⟩ := raises_setEventIf c.ioc .txf (count .txSent s)
  exact ⟨heir, hh, htx, hrx⟩

/-- RXF of the loopback and TXF of the descriptor, each raised or not. -/
theorem mayRaise_txf_rxf {e : BitVec 5} (he : e = 0#5 ∨ e = 0b00100#5) (ioc : Bool) :
    mayRaise .txDesc (e ||| if ioc then 0b00010#5 else 0#5) := by
  obtain rfl | rfl := he <;> cases ioc <;> exact .inr rfl

theorem txProcess_raises (c : DescCtl) (buf : Word) (s : State) :
    ∃ e, mayRaise .txDesc e ∧ Raises e s (txProcess c buf s) := by
  rcases txProcess_cases c buf s with ⟨-, e⟩ | ⟨-, e⟩ | ⟨t, -, -, ht, e⟩ <;> rw [e]
  · exact ⟨_, mayRaise_txf_rxf (.inl rfl) c.ioc, (raises_refl s).trans (txReject_raises c s)⟩
  · exact ⟨_, .inl rfl, raises_busError s⟩
  · obtain ⟨e', he', hdeliver⟩ := txDeliver_raises ht
    exact ⟨_, mayRaise_txf_rxf he' c.ioc, hdeliver.trans (txFinish_raises c t)⟩

theorem txDescriptor_raises {i : Instr} {s t : State} (hf : formatOf i = .txDesc) (h : exec i s = .next t) :
    ∃ e, mayRaise .txDesc e ∧ Raises e s t := by
  cases i with
  | txd c buf =>
    obtain rfl := Host.Outcome.next.inj h
    split
    · exact txProcess_raises c buf s
    · exact ⟨_, mayRaise_zero _, raises_refl s⟩
  | txdStop c =>
    cases h
    exact ⟨_, mayRaise_zero _, BitVec.or_zero.symm, id, fun _ => rfl, id⟩
  | _ => cases hf

theorem rxDescriptor_raises {i : Instr} {s t : State} (hf : formatOf i = .rxDesc) (h : exec i s = .next t) :
    ∃ e, mayRaise .rxDesc e ∧ Raises e s t := by
  cases i with
  | rxd c buf =>
    obtain rfl := Host.Outcome.next.inj h
    split
    · exact ⟨_, mayRaise_zero _, raises_refl s⟩
    split
    · rename_i hu; exact ⟨_, mayRaise_zero _, rxScreen_raises hu⟩
    split
    · rename_i hu; exact ⟨_, by cases c.ioc <;> simp [mayRaise], rxStore_raises hu⟩
    · exact ⟨_, .inr (.inr rfl), raises_busError s⟩
  | rxdStop c =>
    obtain rfl := Host.Outcome.next.inj h
    refine ⟨_, mayRaise_zero _, ?_⟩
    split
    · exact raises_refl s
    split
    · rename_i hu; exact rxScreen_raises hu
    · exact raises_rxStop s
  | _ => cases hf

/-- What an operation that is no register access can do to the events and the flags. -/
theorem exec_raises {i : Instr} {s t : State} (hf : formatOf i ≠ .mmio) (h : exec i s = .next t) :
    ∃ e, mayRaise (formatOf i) e ∧ Raises e s t := by
  cases hfi : formatOf i with
  | mmio => exact absurd hfi hf
  | txDesc => exact txDescriptor_raises hfi h
  | rxDesc => exact rxDescriptor_raises hfi h
  | mmfr => exact managementFrame_raises hfi h
  | ppCmd => exact ppCommand_raises hfi h

/-! ## Register accesses -/

/-- What a register access that is no reset does to the events and the flags: only a write to `EIR` clears events;
`TDAR` and `RDAR` activate a ring, but not while `HALTED`; `CTRL` may stop the rings. -/
structure AccessKeeps (clears : Bool) (s t : State) : Prop where
  events : clears = false → t.eir = s.eir
  halted : t.halted = s.halted
  txActive : s.halted = true → s.txActive = false → t.txActive = false
  rxActive : s.halted = true → s.rxActive = false → t.rxActive = false

theorem accessKeeps_refl (clears : Bool) (s : State) : AccessKeeps clears s s :=
  ⟨fun _ => rfl, rfl, fun _ => id, fun _ => id⟩

theorem accessKeeps_readReg (clears : Bool) (v : Word) (s : State) : AccessKeeps clears s (readReg v s) :=
  ⟨fun _ => rfl, rfl, fun _ => id, fun _ => id⟩

theorem accessReadOnly_keeps {clears : Bool} {v : Word} {a : RegAccess} {s t : State}
    (h : accessReadOnly v a s = .next t) : AccessKeeps clears s t := by
  rcases accessReadOnly_cases h with ⟨-, rfl⟩ | ⟨d, -, rfl⟩
  · exact accessKeeps_readReg _ v s
  · exact accessKeeps_refl _ _

theorem accessGated_keeps {clears : Bool} {v : Word} {ok : Bool} {write : Word → State} {a : RegAccess} {s t : State}
    (h : accessGated v ok write a s = .next t)
    (hw : ∀ d, a = .write d → ok = true → AccessKeeps clears s (write d)) : AccessKeeps clears s t := by
  rcases accessGated_cases h with ⟨-, rfl⟩ | ⟨d, ha, hok, rfl⟩ | ⟨d, -, -, rfl⟩
  · exact accessKeeps_readReg _ v s
  · exact hw d ha hok
  · exact accessKeeps_refl _ _

theorem writeCtrl_keeps {d : Word} (h : d.getLsbD 31 = false) (clears : Bool) (s : State) :
    AccessKeeps clears s (writeCtrl d s) := by
  rw [writeCtrl_of_noReset h]
  exact ⟨fun _ => rfl, rfl, fun _ htx => by simp [htx], fun _ hrx => by simp [hrx]⟩

/-- The gate of `TDAR` and `RDAR` is shut while `HALTED` (R148, R149). -/
theorem activation_shut {s : State} (hh : s.halted = true) : ¬(s.ctrlEn && !s.halted) = true := by
  simp [hh]

theorem registerAccess_keeps {i : Instr} {s t : State} (hf : formatOf i = .mmio) (hr : softReset i = false)
    (h : exec i s = .next t) : AccessKeeps (eirWrite i) s t := by
  cases i with
  | ctrl a => exact accessGated_keeps h fun d ha _ => writeCtrl_keeps (by rw [ha] at hr; exact hr) _ s
  | eir a =>
    refine accessGated_keeps h fun d ha _ => ⟨fun hclears => ?_, rfl, fun _ => id, fun _ => id⟩
    rw [ha] at hclears
    cases hclears
  | tdar a =>
    exact accessGated_keeps h fun d _ hok => ⟨fun _ => rfl, rfl, fun hh => absurd hok (activation_shut hh), fun _ => id⟩
  | rdar a =>
    exact accessGated_keeps h fun d _ hok => ⟨fun _ => rfl, rfl, fun _ => id, fun hh => absurd hok (activation_shut hh)⟩
  | eimr a | tdsr a | rdsr a | rxmax a | maclo a | machi a | mmfr a | ppCmd a | p0 a | p1 a | p2 a | p3 a | p4 a | p5 a
  | p6 a | p7 a | ip4Addr a | ip4Mask a | ip4Gw a | ip4Ttl a | arpSel a =>
    exact accessGated_keeps h fun _ _ _ => ⟨fun _ => rfl, rfl, fun _ => id, fun _ => id⟩
  | status a | tdcur a | rdcur a | cntTxSent a | cntTxErr a | cntRxStored a | cntRxNodesc a | cntRxOversize a
  | cntL2ArpAcc a | cntL2Ip4Acc a | cntL2ArpDrop a | cntL2Ip4Drop a | cntL2OtherDrop a | cntArpBad a | cntIp4Badhdr a
  | cntIp4Badcsum a | cntIp4Baddst a | cntIp4Badproto a | cntIcmpDrop a | cntUdpBadlen a | cntUdpNoport a | ppStatus a
  | arpIp a | arpMaclo a | arpMachi a | arpTs a | udpPort0 a | udpPort1 a | udpPort2 a | udpPort3 a | udpPort4 a
  | udpPort5 a | udpPort6 a | udpPort7 a | reserved _ a =>
    exact accessReadOnly_keeps h
  | _ => cases hf

/-! ## The fetch -/

/-- A turn settled in its fetch has raised what its agent may raise; one that runs an operation has raised nothing. -/
def Fetched.Raises (f : Format) (s : State) : Fetched → Prop
  | .settled t => ∃ e, mayRaise f e ∧ Machine.Raises e s t
  | .run _ u => Machine.Raises 0#5 s u
  | .stop _ | .refuse _ => True

theorem fetchAccess_raises (addr : Word) (width : Width) (a : RegAccess) (s : State) :
    (fetchAccess addr width a s).Raises .mmio s := by
  rcases fetchAccess_cases addr width a s with e | ⟨i, -, -, -, ⟨f, -, e⟩ | ⟨-, e⟩⟩ <;> rw [e]
  · trivial
  · trivial
  · exact raises_of_eq rfl rfl rfl rfl

theorem hostLoad_raises (addr : Word) (width : Width) (s : State) : (hostLoad addr width s).Raises .mmio s := by
  rcases hostLoad_cases addr width s with ⟨-, e⟩ | ⟨f, -, e⟩ | ⟨-, -, e⟩ <;> rw [e]
  · trivial
  · trivial
  · exact ⟨_, rfl, raises_of_eq rfl rfl rfl rfl⟩

theorem hostStoreBytes_raises (addr : Word) (bytes : List Byte) (s : State) :
    (hostStoreBytes addr bytes s).Raises .mmio s := by
  rcases hostStoreBytes_cases addr bytes s with ⟨-, e⟩ | ⟨f, -, e⟩ | ⟨-, -, e⟩ <;> rw [e]
  · trivial
  · trivial
  · exact ⟨_, rfl, raises_of_eq rfl rfl rfl rfl⟩

/-- The bus error of a fetch is the engine's own (R353). -/
theorem fetchDesc_raises {f : Format} (hf : mayRaise f 0b10000#5) (d : Word) (dec : Word → Word → Instr) (s : State) :
    (fetchDesc d dec s).Raises f s := by
  rcases fetchDesc_cases d dec s with e | ⟨-, _, -, e⟩ | ⟨-, -, -, e⟩ | ⟨-, -, -, -, e⟩ <;> rw [e]
  · exact ⟨_, hf, raises_busError s⟩
  · trivial
  · exact raises_refl s
  · exact raises_refl s

theorem fetchTx_raises (s : State) : (fetchTx s).Raises .txDesc s := by
  unfold fetchTx
  split
  · exact fetchDesc_raises (f := .txDesc) (.inl rfl) _ _ s
  · exact ⟨_, mayRaise_zero _, raises_refl s⟩

theorem fetchRx_raises (s : State) : (fetchRx s).Raises .rxDesc s := by
  unfold fetchRx
  split
  · exact ⟨_, mayRaise_zero _, raises_refl s⟩
  split
  · rename_i hu; exact ⟨_, mayRaise_zero _, rxScreen_raises hu⟩
  · exact fetchDesc_raises (f := .rxDesc) (.inr (.inr rfl)) _ _ s

theorem fetchPp_raises (s : State) : (fetchPp s).Raises .ppCmd s := by
  unfold fetchPp
  split
  · trivial
  · exact raises_of_eq rfl rfl rfl rfl

theorem Fetched.Raises.of_start {f : Format} {s t : State} {r : Fetched} (h : Machine.Raises 0#5 s t)
    (h' : r.Raises f t) : r.Raises f s := by
  cases r with
  | settled u =>
    obtain ⟨e, he, hu⟩ := h'
    exact ⟨e, he, h.of_start hu⟩
  | run i u => exact Machine.Raises.of_start h h'
  | _ => trivial

theorem fetchTurn_raises {turn : Turn} {s : State} (hr : resetTurn s.platform turn = false) :
    (fetchTurn turn s).Raises (turnFormat turn) s := by
  cases turn with
  | hostRead addr width =>
    simp only [fetchTurn, fetchHostRead]
    split
    · exact fetchAccess_raises _ _ _ s
    · exact hostLoad_raises _ _ s
  | hostWrite addr width d =>
    simp only [fetchTurn, fetchHostWrite]
    split
    · exact fetchAccess_raises _ _ _ s
    · exact hostStoreBytes_raises _ _ s
  | hostStore addr bytes =>
    simp only [fetchTurn, fetchHostStore]
    split
    · trivial
    · exact hostStoreBytes_raises _ _ s
  | txdma => exact fetchTx_raises s
  | mdio answer => exact raises_of_eq rfl rfl rfl rfl
  | pp => exact fetchPp_raises s
  | wire frame =>
    exact Fetched.Raises.of_start (t := { s with wireIn := frame }) (raises_of_eq rfl rfl rfl rfl) (fetchRx_raises _)
  | reset => cases hr

/-! ## Which turn writes `EIR` -/

theorem eirWrite_eq_true {i : Instr} (h : eirWrite i = true) : ∃ d, i = .eir (.write d) := by
  cases i with
  | eir a =>
    cases a with
    | write d => exact ⟨d, rfl⟩
    | read => cases h
  | _ => cases h

/-- Offset 4 is the one offset of `EIR` (R20). -/
theorem decodeMmio_eir {offset : BitVec 12} {a b : RegAccess} (h : decodeMmio offset a = .ok (.eir b)) :
    offset = 4#12 ∧ a = b := by
  unfold decodeMmio at h
  split at h
  case h_2 h4 => cases h; exact ⟨BitVec.eq_of_toNat_eq h4, rfl⟩
  case h_60 => split at h <;> cases h
  all_goals cases h

/-- A register access clears events only as a 32-bit write to `BASE + 4` (R143). -/
theorem fetchAccess_writesEir (addr : Word) (width : Width) (a : RegAccess) (s : State) :
    (fetchAccess addr width a s).RunsOnly fun i =>
      eirWrite i = true → width = .w32 ∧ addr = s.platform.base + 4#32 ∧ ∃ d, a = .write d := by
  rcases fetchAccess_cases addr width a s with e | ⟨i, hwidth, hw, hi, ⟨f, -, e⟩ | ⟨-, e⟩⟩ <;> rw [e]
  · trivial
  · trivial
  · intro hc
    obtain ⟨d, rfl⟩ := eirWrite_eq_true hc
    obtain ⟨ho, ha⟩ := decodeMmio_eir hi
    have haddr := window_address_eq hw
    rw [ho] at haddr
    exact ⟨hwidth, haddr.symm, d, ha⟩

/-- Only a turn that writes `EIR` runs an operation that does. -/
theorem fetchTurn_writesEir (turn : Turn) (s : State) (hf : turnFormat turn = .mmio) :
    (fetchTurn turn s).RunsOnly fun i => eirWrite i = true → eirTurn s.platform turn = true := by
  cases turn with
  | hostRead addr width =>
    simp only [fetchTurn, fetchHostRead]
    split
    · refine (fetchAccess_writesEir addr width .read s).mono fun i hi hc => ?_
      obtain ⟨-, -, d, hd⟩ := hi hc
      cases hd
    · exact hostLoad_runsOnly _ addr width s
  | hostWrite addr width data =>
    simp only [fetchTurn, fetchHostWrite]
    split
    · refine (fetchAccess_writesEir addr width (.write data) s).mono fun i hi hc => ?_
      obtain ⟨rfl, rfl, -⟩ := hi hc
      exact beq_self_eq_true _
    · exact hostStoreBytes_runsOnly _ addr _ s
  | hostStore addr bytes =>
    simp only [fetchTurn, fetchHostStore]
    split
    · trivial
    · exact hostStoreBytes_runsOnly _ addr bytes s
  | reset => trivial
  | _ => cases hf

/-! ## The step -/

section
variable {s t : State} {turn : Turn} {rest : List Turn} (hs : s.schedule = turn :: rest) (h : step s = .next t)
  (hr : resetTurn s.platform turn = false)
include hs h hr

/-- A step on a turn that is no reset raises what its agent may raise, or is a register access by the host. -/
theorem step_raises_or_access :
    (∃ e, mayRaise (turnFormat turn) e ∧ Raises e s t) ∨
    ∃ i u, fetchTurn turn { s with schedule := rest } = .run i u ∧ turnFormat turn = .mmio ∧ Raises 0#5 s u ∧
      AccessKeeps (eirWrite i) u t := by
  have hfetch : (fetchTurn turn { s with schedule := rest }).Raises (turnFormat turn) s :=
    Fetched.Raises.of_start (t := { s with schedule := rest }) (raises_of_eq rfl rfl rfl rfl) (fetchTurn_raises hr)
  rcases step_cons_next hs h with e | ⟨i, u, e, ⟨hf, hreset⟩, hi⟩
  · rw [e] at hfetch
    exact .inl hfetch
  · have hu : Raises 0#5 s u := by rwa [e] at hfetch
    by_cases hmmio : formatOf i = .mmio
    · have hsoft : softReset i = false := Bool.eq_false_iff.2 fun hri => by rw [hreset hri] at hr; cases hr
      exact .inr ⟨i, u, e, hf ▸ hmmio, hu, registerAccess_keeps hmmio hsoft hi⟩
    · obtain ⟨ev, hev, ht⟩ := exec_raises hmmio hi
      exact .inl ⟨ev, hf ▸ hev, hu.of_start ht⟩

/-- A step on a turn that neither resets nor writes `EIR` raises what its agent may raise and clears nothing. -/
theorem step_events (he : eirTurn s.platform turn = false) :
    ∃ e, mayRaise (turnFormat turn) e ∧ t.eir = s.eir ||| e := by
  rcases step_raises_or_access hs h hr with ⟨e, hm, ht⟩ | ⟨i, u, hrun, hf, hu, ht⟩
  · exact ⟨e, hm, ht.events⟩
  · have hwrites := fetchTurn_writesEir turn { s with schedule := rest } hf
    rw [hrun] at hwrites
    have hkeeps : eirWrite i = false := Bool.eq_false_iff.2 fun hc => by rw [hwrites hc] at he; cases he
    exact ⟨0#5, mayRaise_zero _, (ht.events hkeeps).trans hu.events⟩

end

/-! ## The statements -/

/-- From `s` to `t` a halted state has stayed halted, and no ring has become active in it. -/
def StaysHalted (s t : State) : Prop :=
  s.halted = true →
    t.halted = true ∧ (s.txActive = false → t.txActive = false) ∧ (s.rxActive = false → t.rxActive = false)

theorem Raises.staysHalted {e : BitVec 5} {s t : State} (h : Raises e s t) : StaysHalted s t :=
  fun hh => ⟨h.halted hh, h.txActive, h.rxActive⟩

theorem AccessKeeps.staysHalted {clears : Bool} {s t : State} (h : AccessKeeps clears s t) : StaysHalted s t :=
  fun hh => ⟨h.halted.trans hh, h.txActive hh, h.rxActive hh⟩

theorem StaysHalted.trans {s t u : State} (h : StaysHalted s t) (h' : StaysHalted t u) : StaysHalted s u := by
  intro hh
  obtain ⟨hh, htx, hrx⟩ := h hh
  obtain ⟨hh', htx', hrx'⟩ := h' hh
  exact ⟨hh', htx' ∘ htx, hrx' ∘ hrx⟩

/-- Settles O58: nothing but a reset clears the flag, and while it is set the gate of `TDAR` and `RDAR` is shut. -/
theorem haltedUntilReset : Obligations.HaltedUntilReset := by
  refine ⟨fun i s t h hr => ?_, fun s t turn rest hs h hr => ?_⟩
  · by_cases hf : formatOf i = .mmio
    · exact (registerAccess_keeps hf hr h).staysHalted
    · obtain ⟨e, -, ht⟩ := exec_raises hf h
      exact ht.staysHalted
  · rcases step_raises_or_access hs h hr with ⟨e, -, ht⟩ | ⟨i, u, -, -, hu, ht⟩
    · exact ht.staysHalted
    · exact hu.staysHalted.trans ht.staysHalted

/-- An operation of another format raises its engine's events and clears none. -/
theorem exec_mayRaise {f : Format} {i : Instr} {s t : State} (h : exec i s = .next t) (hf : formatOf i = f)
    (hm : f ≠ .mmio) : ∃ e, t.eir = s.eir ||| e ∧ mayRaise f e := by
  subst hf
  obtain ⟨e, he, ht⟩ := exec_raises hm h
  exact ⟨e, ht.events, he⟩

theorem turnFormat_of_hostAccess {turn : Turn} {x : Bool × Word × Nat} (h : hostAccess turn = some x) :
    turnFormat turn = .mmio := by
  cases turn with
  | hostRead addr width | hostWrite addr width d | hostStore addr bytes => rfl
  | _ => cases h

/-- An event that may not have been raised, as two cases of the register. -/
theorem eir_cases {v v' b : BitVec 5} (h : ∃ e, v' = v ||| e ∧ (e = 0#5 ∨ e = b)) : v' = v ∨ v' = v ||| b := by
  obtain ⟨e, he, rfl | rfl⟩ := h
  · exact .inl (he.trans BitVec.or_zero)
  · exact .inr he

/-- Settles O56, format by format and agent by agent. -/
theorem eventsAreSetAndClearedByTheirRules : Obligations.EventsAreSetAndClearedByTheirRules := by
  refine ⟨fun i s t h hr => ⟨fun he => ?_, fun hf he => (registerAccess_keeps hf hr h).events he,
    fun hf => eir_cases (exec_mayRaise h hf (by decide)), fun hf => eir_cases (exec_mayRaise h hf (by decide)),
    fun hf => exec_mayRaise h hf (by decide), fun hf => exec_mayRaise h hf (by decide)⟩,
    fun s t turn rest hs h hr he => ?_⟩
  · by_cases hf : formatOf i = .mmio
    · rw [(registerAccess_keeps hf hr h).events he, BitVec.and_self]
    · obtain ⟨e, -, ht⟩ := exec_raises hf h
      exact ht.events_kept
  · obtain ⟨e, hm, ht⟩ := step_events hs h hr he
    refine ⟨e, ht, ?_, ?_, ?_, ?_, ?_⟩
    · rintro ⟨b, a, n, hx⟩
      rwa [turnFormat_of_hostAccess hx] at hm
    · rintro ⟨v, rfl⟩
      exact hm
    · rintro rfl
      exact hm
    · rintro rfl
      exact hm
    · rintro ⟨f, rfl⟩
      exact hm

end Sys2Proof.Machine
end

section
/-! The host's accesses to system memory (20_memory R81, R85): what a load reads and a store writes, when a turn comes
to one, what it breaks of the contract and what the record of hand-overs notes. -/

namespace Sys2Proof.Machine

/-! ## Bytes at consecutive addresses -/

/-- Within the address space a byte's address is the sum of numbers. -/
theorem toNat_add_ofNat_of_fits {a : Word} {i : Nat} (h : a.toNat + i < 2 ^ 32) :
    (a + BitVec.ofNat 32 i).toNat = a.toNat + i := by
  rw [BitVec.toNat_add, BitVec.toNat_ofNat]
  omega

section
variable {m : Memory} {a : Word} {bs : List Byte} (hfit : a.toNat + bs.length ≤ 2 ^ 32)
include hfit

theorem loadByte_storeBytes_outside {x : Nat} (h : x < a.toNat ∨ a.toNat + bs.length ≤ x) :
    loadByte (storeBytes m a bs) x = loadByte m x := by
  refine loadByte_storeBytes_ne m a bs x fun i hi => ?_
  rw [toNat_add_ofNat_of_fits (by omega)]
  omega

theorem loadByte_storeBytes_inside (hm : memoryWf m = true) {i : Nat} {b : Byte} (hb : bs[i]? = some b) :
    loadByte (storeBytes m a bs) (a.toNat + i) = b := by
  obtain ⟨hi, rfl⟩ := List.getElem?_eq_some_iff.1 hb
  rw [← toNat_add_ofNat_of_fits (by omega)]
  exact loadByte_storeBytes m hm a bs (by omega) i hi

end

/-! ## Values of a width (R85) -/

/-- The byte `i` of a value of a width loaded at `a`: a byte of memory, or zero beyond the width. -/
def loadedByte (m : Memory) (a : Word) (w : Width) (i : Nat) : Byte :=
  if i < w.bytes then load8 m (a + BitVec.ofNat 32 i) else 0#8

theorem loadWidth_eq_ofLe4 (m : Memory) (a : Word) (w : Width) :
    loadWidth m a w = ofLe4 (loadedByte m a w 0) (loadedByte m a w 1) (loadedByte m a w 2) (loadedByte m a w 3) := by
  have h0 := (load8 m a).isLt
  have h1 := (load8 m (a + 1#32)).isLt
  cases w with
  | w8 | w16 =>
    apply BitVec.eq_of_toNat_eq
    simp only [loadWidth, loadedByte, ofLe4, Width.bytes, Nat.reduceLT, reduceIte, BitVec.add_zero,
      toNat_append_eq_add, BitVec.toNat_setWidth, BitVec.toNat_ofNat]
    omega
  | w32 => simp [loadWidth, load32, load8, loadedByte, Width.bytes]

/-- A load is little-endian and zero-extended. -/
theorem loadWidth_extract (m : Memory) (a : Word) (w : Width) {i : Nat} (hi : i < 4) :
    (loadWidth m a w).extractLsb' (8 * i) 8 = loadedByte m a w i := by
  rw [loadWidth_eq_ofLe4]
  obtain rfl | rfl | rfl | rfl : i = 0 ∨ i = 1 ∨ i = 2 ∨ i = 3 := by omega
  · exact lowByte_append _ _
  · exact (upperByte_append (start := 0) _ _).trans (lowByte_append _ _)
  · exact (upperByte_append (start := 8) _ _).trans ((upperByte_append (start := 0) _ _).trans (lowByte_append _ _))
  · exact (upperByte_append (start := 16) _ _).trans ((upperByte_append (start := 8) _ _).trans
      ((upperByte_append (start := 0) _ _).trans BitVec.extractLsb'_eq_self))

theorem loadedByte_eq {m : Memory} {a : Word} {w : Width} (hfit : a.toNat + w.bytes ≤ 2 ^ 32) (i : Nat) :
    loadedByte m a w i = if i < w.bytes then loadByte m (a.toNat + i) else 0#8 := by
  unfold loadedByte
  split
  · rw [load8, toNat_add_ofNat_of_fits (by omega)]
  · rfl

@[simp] theorem length_widthBytes (d : Word) (w : Width) : (widthBytes d w).length = w.bytes := by
  cases w <;> rfl

theorem widthBytes_getElem? {d : Word} {w : Width} {i : Nat} (h : i < w.bytes) :
    (widthBytes d w)[i]? = some (d.extractLsb' (8 * i) 8) := by
  cases w with
  | w8 =>
    obtain rfl : i = 0 := Nat.lt_one_iff.1 h
    rfl
  | w16 =>
    obtain rfl | rfl : i = 0 ∨ i = 1 := by simp only [Width.bytes] at h; omega
    all_goals rfl
  | w32 =>
    obtain rfl | rfl | rfl | rfl : i = 0 ∨ i = 1 ∨ i = 2 ∨ i = 3 := by simp only [Width.bytes] at h; omega
    all_goals rfl

/-! ## When a turn comes to memory -/

/-- The bytes a store of the host writes. -/
def storedBytes : Turn → List Byte
  | .hostWrite _ width d => widthBytes d width
  | .hostStore _ bytes => bytes
  | _ => []

/-- Outside the register window a host access is a load of a width or a store of bytes (R83, R85). -/
theorem memoryAccess_cases {s : State} {turn : Turn} {store : Bool} {addr : Word} {n : Nat}
    (hx : hostAccess turn = some (store, addr, n)) (hw : touchesWindow s.platform addr n = false) :
    (∃ w, turn = .hostRead addr w ∧ store = false ∧ n = w.bytes ∧ fetchTurn turn s = hostLoad addr w s) ∨
    (store = true ∧ n = (storedBytes turn).length ∧ fetchTurn turn s = hostStoreBytes addr (storedBytes turn) s) := by
  cases turn with
  | hostRead a w =>
    cases hx
    exact .inl ⟨w, rfl, rfl, rfl, if_neg (Bool.eq_false_iff.1 hw)⟩
  | hostWrite a w d =>
    cases hx
    exact .inr ⟨rfl, (length_widthBytes d w).symm, if_neg (Bool.eq_false_iff.1 hw)⟩
  | hostStore a bytes =>
    cases hx
    exact .inr ⟨rfl, rfl, if_neg (Bool.eq_false_iff.1 hw)⟩
  | _ => cases hx

/-- What a memory access of the host breaks (R400, R96). -/
def accessBreaks (store : Bool) (a : Span) (s : State) : Option Fault :=
  if store then hostStoreBreach a s else hostReadBreach a s

section
variable {s : State} {turn : Turn} {rest : List Turn} {store : Bool} {addr : Word} {n : Nat}
  (hs : s.schedule = turn :: rest) (hx : hostAccess turn = some (store, addr, n))
  (hw : touchesWindow s.platform addr n = false)
include hs hx hw

/-- There is no memory past 0xFFFFFFFF (R80, log 6). -/
theorem step_past_top (h : 2 ^ 32 < addr.toNat + n) : step s = .fault .addressSpace := by
  refine step_of_stop hs ?_
  rcases memoryAccess_cases (s := { s with schedule := rest }) hx hw with ⟨w, -, -, rfl, e⟩ | ⟨-, rfl, e⟩ <;> rw [e]
  · exact if_pos h
  · exact if_pos h

theorem step_of_broken_access (hfit : addr.toNat + n ≤ 2 ^ 32) {f : Fault}
    (hb : accessBreaks store ⟨addr, n⟩ s = some f) : step s = .fault f := by
  refine step_of_stop hs ?_
  rcases memoryAccess_cases (s := { s with schedule := rest }) hx hw with ⟨w, -, rfl, rfl, e⟩ | ⟨rfl, rfl, e⟩ <;> rw [e]
  · have hread : hostReadBreach ⟨addr, w.bytes⟩ { s with schedule := rest } = some f := hb
    simp only [hostLoad, Nat.not_lt.2 hfit, if_false, hread]
  · have hstore : hostStoreBreach ⟨addr, (storedBytes turn).length⟩ { s with schedule := rest } = some f := hb
    simp only [hostStoreBytes, Nat.not_lt.2 hfit, if_false, hstore]

/-- An access that keeps the contract is a load or a store, and nothing but memory, the value read and the record of
hand-overs changes. -/
theorem step_of_kept_access (hfit : addr.toNat + n ≤ 2 ^ 32) (hb : accessBreaks store ⟨addr, n⟩ s = none) :
    (∃ w, turn = .hostRead addr w ∧ store = false ∧ n = w.bytes ∧
      step s = .next { s with
        schedule := rest
        hostData := loadWidth s.mem addr w
        handed := handedAfterRead s ⟨addr, n⟩ }) ∨
    (store = true ∧ n = (storedBytes turn).length ∧
      step s = .next { s with
        schedule := rest
        mem := storeBytes s.mem addr (storedBytes turn)
        handed := handedAfterStore s ⟨addr, n⟩ (storeBytes s.mem addr (storedBytes turn)) }) := by
  rcases memoryAccess_cases (s := { s with schedule := rest }) hx hw with ⟨w, rfl, rfl, rfl, e⟩ | ⟨rfl, rfl, e⟩
  · have hread : hostReadBreach ⟨addr, w.bytes⟩ { s with schedule := rest } = none := hb
    refine .inl ⟨w, rfl, rfl, rfl, step_of_settled hs (e.trans ?_)⟩
    simp only [hostLoad, Nat.not_lt.2 hfit, if_false, hread]
    rfl
  · have hstore : hostStoreBreach ⟨addr, (storedBytes turn).length⟩ { s with schedule := rest } = none := hb
    refine .inr ⟨rfl, rfl, step_of_settled hs (e.trans ?_)⟩
    simp only [hostStoreBytes, Nat.not_lt.2 hfit, if_false, hstore]
    rfl

end

/-! ## What an access breaks -/

theorem bytesMeet_symm {a b : Word} {n k : Nat} (h : bytesMeet a n b k) : bytesMeet b k a n := by
  obtain ⟨x, ha, ha', hb, hb'⟩ := h
  exact ⟨x, hb, hb', ha, ha'⟩

section
variable {s : State} {store : Bool} {a : Span} {d : Word}

/-- A store to a descriptor that an engine owns (R91, R400). -/
theorem accessBreaks_of_ownedDesc (hd : ownedTx s d ∨ ownedRx s d) (hm : bytesMeet a.start a.len d 8) :
    accessBreaks true a s = some .ownership := by
  have hmem : descSpan d ∈ ownedDescs s ++ ownedBuffers s := by
    rw [ownedTx_iff, ownedRx_iff, ← List.mem_append] at hd
    exact List.mem_append_left _ (List.mem_map_of_mem hd)
  exact if_pos ((meetsAny_iff a _).2 ⟨_, hmem, hm⟩)

/-- Any access to a buffer that an engine owns (R91, R400). -/
theorem accessBreaks_of_ownedBuffer {b : Span} (hb : b ∈ ownedBuffers s) (hm : bytesMeet a.start a.len b.start b.len) :
    accessBreaks store a s = some .ownership := by
  cases store with
  | true => exact if_pos ((meetsAny_iff a _).2 ⟨b, List.mem_append_right _ hb, hm⟩)
  | false => exact if_pos ((meetsAny_iff a _).2 ⟨b, hb, hm⟩)

theorem txBuffer_mem_ownedBuffers (h : ownedTx s d) : txBuffer s d ∈ ownedBuffers s :=
  List.mem_append_left _ (List.mem_map_of_mem ((ownedTx_iff s d).1 h))

theorem rxBuffer_mem_ownedBuffers (h : ownedRx s d) : rxBuffer s d ∈ ownedBuffers s :=
  List.mem_append_right _ (List.mem_map_of_mem ((ownedRx_iff s d).1 h))

/-- Any access to the footprint of a pending command, where nothing is owned (R96). -/
theorem accessBreaks_of_footprint {b : Span} (hb : b ∈ ppFootprint s)
    (hfree : meetsAny a (ownedDescs s ++ ownedBuffers s) = false) (hm : bytesMeet a.start a.len b.start b.len) :
    accessBreaks store a s = some .ppFootprint := by
  have hmeets : meetsAny a (ppFootprint s) = true := (meetsAny_iff a _).2 ⟨b, hb, hm⟩
  have hbuffers : meetsAny a (ownedBuffers s) = false := by
    simp only [meetsAny, List.any_append, Bool.or_eq_false_iff] at hfree
    exact hfree.2
  cases store with
  | true => simp [accessBreaks, hostStoreBreach, hfree, hmeets]
  | false => simp [accessBreaks, hostReadBreach, hbuffers, hmeets]

end

/-! ## What the record of hand-overs notes (R400, R401, R96) -/

section
variable {s : State} {r : Handover} (hr : r ∈ s.handed) (hown : isReady s r.desc = true)
include hr hown

/-- A read of the buffer that the descriptor names is noted, as of a Tx and as of an Rx descriptor. -/
theorem handedAfterRead_notes (a : Span) :
    ∃ r' ∈ handedAfterRead s a, r'.desc = r.desc ∧
      (bytesMeet a.start a.len (txBuffer s r.desc).start (txBuffer s r.desc).len → r'.tx ≠ none) ∧
      (bytesMeet a.start a.len (rxBuffer s r.desc).start (rxBuffer s r.desc).len → r'.rx ≠ none) := by
  obtain ⟨hdesc, -, -, htx, hrx⟩ :=
    r.mark_keeps (a.overlaps (txBuffer s r.desc)) (a.overlaps (rxBuffer s r.desc)) .ownership
  exact ⟨_, List.mem_map_of_mem (mem_inForce hr hown), hdesc, fun h => htx ((Span.overlaps_iff _ _).2 h),
    fun h => hrx ((Span.overlaps_iff _ _).2 h)⟩

/-- A store to word 1 that leaves word 0 alone is noted (R401). -/
theorem handedAfterStore_notes_word1 {a : Span} {m : Memory} (h0 : ¬bytesMeet a.start a.len r.desc 4)
    (h1 : bytesMeet a.start a.len (r.desc + 4#32) 4) :
    ∃ r' ∈ handedAfterStore s a m, r'.desc = r.desc ∧ r'.tx ≠ none ∧ r'.rx ≠ none := by
  obtain ⟨hdesc, -, htx, hrx⟩ := Handover.afterStore_word1 s a r ((Span.overlaps_iff _ _).2 h1)
  have hkept : (touchedSlots a.start a.len).contains r.desc = false := by
    rw [Bool.eq_false_iff, ne_eq, List.contains_iff_mem]
    exact fun hmem => h0 ((Span.overlaps_iff ⟨a.start, a.len⟩ ⟨r.desc, 4⟩).1 (List.mem_filter.1 hmem).2)
  have hfree : r ∈ (inForce s).filter fun h => !(touchedSlots a.start a.len).contains h.desc :=
    List.mem_filter.2 ⟨mem_inForce hr hown, congrArg not hkept⟩
  exact ⟨_, List.mem_append_left _ (List.mem_map_of_mem hfree), hdesc, htx, hrx⟩

/-- A second store to word 0 that leaves `OWN = 1` is noted (R400). -/
theorem handedAfterStore_notes_again {a : Span} {m : Memory} (ht : r.desc ∈ touchedSlots a.start a.len)
    (hm : ownBit (load32 m r.desc) = true) :
    ∃ r' ∈ handedAfterStore s a m, r'.desc = r.desc ∧ r'.tx ≠ none ∧ r'.rx ≠ none := by
  have hfound : ((inForce s).find? fun h => h.desc == r.desc).isSome :=
    List.find?_isSome.2 ⟨r, mem_inForce hr hown, beq_self_eq_true _⟩
  obtain ⟨h, hh⟩ := Option.isSome_iff_exists.1 hfound
  have hdesc : h.desc = r.desc := by simpa using List.find?_some hh
  obtain ⟨hagain, htx, hrx⟩ := Handover.again_noted s a h
  refine ⟨h.again s a, List.mem_append_right _ (List.mem_map.2 ⟨r.desc, List.mem_filter.2 ⟨ht, hm⟩, ?_⟩),
    hagain.trans hdesc, htx, hrx⟩
  simp only [hh]

/-- A pending footprint that meets the buffer of an Rx descriptor is noted at the end of the command (R96). -/
theorem handedAfterPp_notes_rx {a : Span} (ha : a ∈ ppFootprint s)
    (hm : bytesMeet a.start a.len (rxBuffer s r.desc).start (rxBuffer s r.desc).len) :
    ∃ r' ∈ handedAfterPp s, r'.desc = r.desc ∧ r'.rx ≠ none := by
  have hbusy : s.ppBusy = true := by
    by_contra hb
    rw [ppFootprint_idle (Bool.eq_false_iff.2 hb)] at ha
    cases ha
  have hmeets : footprintMeets s r.desc (rxBuffer s r.desc) = true := by
    rw [footprintMeets, (meetsAny_iff _ _).2 ⟨a, ha, bytesMeet_symm hm⟩, Bool.or_true]
  obtain ⟨hdesc, -, -, -, hrx⟩ := r.mark_keeps (footprintMeets s r.desc (txBuffer s r.desc))
    (footprintMeets s r.desc (rxBuffer s r.desc)) .sharedMemory
  rw [handedAfterPp, if_pos hbusy]
  exact ⟨_, List.mem_map.2 ⟨r, hr, if_pos hown⟩, hdesc, hrx hmeets⟩

end

/-- A word stored at a multiple of 8 is word 0 of a slot. -/
theorem mem_touchedSlots_of_aligned {a : Word} (h : a.toNat % 8 = 0) : a ∈ touchedSlots a 4 := by
  have hbase : a &&& 0xFFFFFFF8#32 = a := by
    refine (ringBase_eq a).trans (BitVec.eq_of_toNat_eq ?_)
    have ha := a.isLt
    rw [BitVec.toNat_ofNat]
    omega
  have hmeets : (Span.mk a 4).overlaps ⟨a, 4⟩ = true :=
    (Span.overlaps_iff _ _).2 ⟨a.toNat, le_rfl, by simp, le_rfl, by simp⟩
  exact List.mem_filter.2 ⟨List.mem_map.2 ⟨0, by simp, by simp [hbase, ofLen]⟩, hmeets⟩

end Sys2Proof.Machine
end

section
/-! The stops of a broken contract (70_reset R400, R401, R407, 20_memory R96; 93 U1 to U4), turn by turn, and beside
them the accesses that keep it. -/

namespace Sys2Proof.Machine

/-! ## Register writes that break the contract -/

section
variable {s : State} {rest : List Turn} {d : Word} (hb : s.platform.base.toNat % 0x1000 = 0)
include hb

theorem step_hostWrite_register_breach {offset : BitVec 12} {i : Instr} {f : Fault}
    (hs : s.schedule = .hostWrite (s.platform.base + offset.setWidth 32) .w32 d :: rest)
    (hi : decodeMmio offset (.write d) = .ok i) (hc : accessBreach i s = some f) : step s = .fault f :=
  step_hostWrite_breach (inWindow_window_address hb offset) hs (by rw [offset_of_window_address]; exact hi) hc

/-- A write that the record of hand-overs does not follow stops at a breach, and runs its operation without one. -/
theorem step_write_trigger {offset : BitVec 12} {i : Instr}
    (hs : s.schedule = .hostWrite (s.platform.base + offset.setWidth 32) .w32 d :: rest)
    (hi : decodeMmio offset (.write d) = .ok i) (hh : handedAfterAccess i s = s.handed) :
    (accessBreach i s ≠ none → ∃ f, step s = .fault f) ∧
    (accessBreach i s = none → step s = exec i { s with schedule := rest }) := by
  refine ⟨fun hbreach => ?_, fun hkept => ?_⟩
  · obtain ⟨f, hf⟩ := Option.ne_none_iff_exists'.1 hbreach
    exact ⟨f, step_hostWrite_register_breach hb hs hi hf⟩
  · rw [step_hostWrite_register hb hs ((decode_encodeMmio _ _).trans hi) hkept, hh]

section
variable (hen : s.ctrlEn = true) (hhalted : s.halted = false)
include hen hhalted

/-- A write to `TDAR` that activates the ring with a breach noted (R400, R401), and one that finds it active (R402). -/
theorem step_write_tdar (hs : s.schedule = .hostWrite (s.platform.base + 0x018#32) .w32 d :: rest) :
    (s.txActive = false → notedOn s (readyDescTx s) Handover.tx → ∃ f, step s = .fault f) ∧
    (s.txActive = true → step s = .next { s with schedule := rest }) := by
  obtain ⟨hstop, hrun⟩ := step_write_trigger (offset := 0x018#12) (i := .tdar (.write d)) hb hs rfl rfl
  refine ⟨fun hidle hnoted => hstop ?_, fun hactive => (hrun ?_).trans ?_⟩
  · simpa [accessBreach, hen, hhalted, hidle] using startBreachTx_ne_none hnoted
  · simp [accessBreach, hactive]
  · obtain ⟨-, -, haccepted, -⟩ := activationRegisters { s with schedule := rest } d
    rw [(haccepted hen hhalted).1, ← hactive]

/-- The same for `RDAR`. -/
theorem step_write_rdar (hs : s.schedule = .hostWrite (s.platform.base + 0x01C#32) .w32 d :: rest) :
    (s.rxActive = false → notedOn s (readyDescRx s) Handover.rx → ∃ f, step s = .fault f) ∧
    (s.rxActive = true → step s = .next { s with schedule := rest }) := by
  obtain ⟨hstop, hrun⟩ := step_write_trigger (offset := 0x01C#12) (i := .rdar (.write d)) hb hs rfl rfl
  refine ⟨fun hidle hnoted => hstop ?_, fun hactive => (hrun ?_).trans ?_⟩
  · simpa [accessBreach, hen, hhalted, hidle] using startBreachRx_ne_none hnoted
  · simp [accessBreach, hactive]
  · obtain ⟨-, -, haccepted, -⟩ := activationRegisters { s with schedule := rest } d
    rw [(haccepted hen hhalted).2, ← hactive]

end

/-- The writes that could move a ring away or end the command while the footprint overlaps what the rings hold (R96). -/
theorem step_write_under_footprint (hapart : footprintApart s = false) {turn : Turn} (hs : s.schedule = turn :: rest)
    (hturn : turn = .hostWrite s.platform.base .w32 d ∨ turn = .hostWrite (s.platform.base + 0x010#32) .w32 d ∨
      turn = .hostWrite (s.platform.base + 0x014#32) .w32 d) : step s = .fault .sharedMemory := by
  have hbreach : (if footprintApart s then none else some Fault.sharedMemory) = some .sharedMemory := by simp [hapart]
  obtain rfl | rfl | rfl := hturn
  · rw [← BitVec.add_zero s.platform.base] at hs
    exact step_hostWrite_register_breach (offset := 0x000#12) (i := .ctrl (.write d)) hb hs rfl hbreach
  · exact step_hostWrite_register_breach (offset := 0x010#12) (i := .tdsr (.write d)) hb hs rfl hbreach
  · exact step_hostWrite_register_breach (offset := 0x014#12) (i := .rdsr (.write d)) hb hs rfl hbreach

end

/-! ## Turns of the engines and of the PP under a broken contract -/

theorem fetchDesc_stop {d : Word} {s : State} {f : Fault} (h0 : admitted s.platform d 4 = true)
    (h1 : ownBit (load32 s.mem d) = true → admitted s.platform (d + 4#32) 4 = true) (hc : contractBreach s = some f)
    (dec : Word → Word → Instr) : fetchDesc d dec s = .stop f := by
  cases hown : ownBit (load32 s.mem d) with
  | false => simp [fetchDesc, isReady, h0, hown, hc]
  | true => simp [fetchDesc, isReady, h0, hown, h1 hown, hc]

section
variable {s : State} {rest : List Turn} (hbroken : contractBroken s)
include hbroken

theorem step_txdma_broken (hs : s.schedule = .txdma :: rest) (ha : s.txActive = true)
    (h0 : admitted s.platform s.tdcur 4 = true)
    (h1 : ownBit (load32 s.mem s.tdcur) = true → admitted s.platform (s.tdcur + 4#32) 4 = true) :
    ∃ f, step s = .fault f := by
  obtain ⟨f, hf⟩ := Option.ne_none_iff_exists'.1 (contractBreach_ne_none hbroken)
  refine ⟨f, step_of_stop hs ((if_pos ha).trans ?_)⟩
  exact fetchDesc_stop (s := { s with schedule := rest }) h0 h1 ((contractBreach_schedule s rest).trans hf) _

theorem step_wire_broken {frame : List Byte} (hs : s.schedule = .wire frame :: rest) (hg : rxIgnores s = false)
    (hscreen : rxScreen frame s = none) (h0 : admitted s.platform s.rdcur 4 = true)
    (h1 : ownBit (load32 s.mem s.rdcur) = true → admitted s.platform (s.rdcur + 4#32) 4 = true) :
    ∃ f, step s = .fault f := by
  obtain ⟨f, hf⟩ := Option.ne_none_iff_exists'.1 (contractBreach_ne_none hbroken)
  have hscreen : rxScreen frame { s with schedule := rest, wireIn := frame } = none :=
    (rxScreen_eq_none_iff frame _).2 ((rxScreen_eq_none_iff frame s).1 hscreen)
  refine ⟨f, step_of_stop hs
    ((fetchRx_of_screened (s := { s with schedule := rest, wireIn := frame }) hg hscreen).trans ?_)⟩
  exact fetchDesc_stop (s := { s with schedule := rest, wireIn := frame }) h0 h1
    ((contractBreach_latched s rest frame).trans hf) _

end

theorem step_pp_overlapping {s : State} {rest : List Turn} (hs : s.schedule = .pp :: rest)
    (hapart : footprintApart s = false) : step s = .fault .sharedMemory := by
  refine step_of_stop hs ?_
  simp only [fetchTurn, fetchPp, footprintApart_schedule, hapart]
  rfl

/-! ## The statement -/

/-- Settles O60: memory accesses by whether they keep the contract, then the writes and turns that find it broken. -/
theorem brokenContractsStopTheRun : Obligations.BrokenContractsStopTheRun := by
  intro s turn rest hs hm
  refine ⟨fun store addr n hx hw => ⟨step_past_top hs hx hw, fun hfit => ⟨fun hkept => ?_, ?_, ?_, ?_, ?_⟩⟩,
    fun hb hen hhalted d => ⟨?_, ?_⟩, fun hb d a b ha hb' hmeet hturn => ?_, ?_, ?_, ?_, ?_⟩
  · rcases step_of_kept_access hs hx hw hfit hkept with ⟨w, rfl, rfl, rfl, e⟩ | ⟨rfl, rfl, e⟩
    · refine ⟨_, _, _, e, fun _ => rfl, nofun, hm, fun _ _ => rfl, ?_, nofun, nofun, nofun, nofun, ?_⟩
      · rintro w' hw' i hi
        cases hw'
        exact (loadWidth_extract _ _ _ hi).trans (loadedByte_eq hfit i)
      · intro _ r hr hown
        obtain ⟨r', hr', hdesc, htx, hrx⟩ := handedAfterRead_notes hr hown ⟨addr, w.bytes⟩
        exact ⟨fun h => ⟨r', hr', hdesc, htx h⟩, fun h => ⟨r', hr', hdesc, hrx h⟩⟩
    · refine ⟨_, _, _, e, nofun, fun _ => rfl, memoryWf_storeBytes hm _ _,
        fun x hx => loadByte_storeBytes_outside hfit hx, ?_, ?_, ?_, ?_, ?_, nofun⟩
      · rintro w rfl
        cases hx
      · rintro w d rfl i hi
        exact loadByte_storeBytes_inside hfit hm (widthBytes_getElem? hi)
      · rintro bytes rfl i b hb
        exact loadByte_storeBytes_inside hfit hm hb
      · exact fun _ r hr hown => handedAfterStore_notes_word1 hr hown (a := ⟨addr, _⟩)
      · rintro d - rfl hd halign r hr rfl hown
        refine handedAfterStore_notes_again hr hown (mem_touchedSlots_of_aligned halign) ?_
        exact (congrArg ownBit (load32_store32 s.mem hm r.desc d)).trans hd
  · rintro d hd rfl hmeet
    exact step_of_broken_access hs hx hw hfit (accessBreaks_of_ownedDesc hd hmeet)
  · rintro d len hd rfl hmeet
    exact step_of_broken_access hs hx hw hfit (accessBreaks_of_ownedBuffer (txBuffer_mem_ownedBuffers hd) hmeet)
  · rintro d hd hmeet
    exact step_of_broken_access hs hx hw hfit (accessBreaks_of_ownedBuffer (rxBuffer_mem_ownedBuffers hd) hmeet)
  · rintro a ha hfree hmeet
    exact step_of_broken_access hs hx hw hfit (accessBreaks_of_footprint ha hfree hmeet)
  · rintro rfl
    exact step_write_tdar hb hen hhalted hs
  · rintro rfl
    exact step_write_rdar hb hen hhalted hs
  · exact step_write_under_footprint hb (footprintApart_false ha hb' hmeet) hs hturn
  · rintro rfl ha h0 h1 hbroken
    exact step_txdma_broken hbroken hs ha h0 h1
  · rintro frame rfl hg hscreen h0 h1 hbroken
    exact step_wire_broken hbroken hs hg hscreen h0 h1
  · rintro a b rfl ha hb hmeet
    exact step_pp_overlapping hs (footprintApart_false ha hb hmeet)
  · exact fun a r ha hr hown hmeet => handedAfterPp_notes_rx hr hown ha hmeet

end Sys2Proof.Machine
end
